-- ==== Sys2Proof/Word.lean ====
section
/-! DEFINITION. The plain word types of the block (00_scope.md R10, R11). -/

namespace Sys2Proof

/-- A byte of a frame, of the link, an address or a checksum (R10: a byte is 8 bits). -/
abbrev Byte := BitVec 8

/-- A request descriptor (R98): one 64-bit word, bit 63 most significant. -/
abbrev Desc := BitVec 64

end Sys2Proof
end

