-- ==== Sys2Proof/Syntax.lean ====
section
/-! DEFINITION. The twelve host operations of R100, one constructor per row of spec/opcode_table.json. -/

namespace Sys2Proof

/-- A host operation with its operands (R100); the operand widths are those of the descriptor fields (R98). -/
inductive Instr where
  /-- ENC_S cmd, R131 -/
  | encS (cmd : Byte)
  /-- ENC_P8 cmd, v8, R132 -/
  | encP8 (cmd v8 : Byte)
  /-- ENC_P16 cmd, v16, R133; v16 is V32[15:0] -/
  | encP16 (cmd : Byte) (v16 : BitVec 16)
  /-- ENC_P8P32 cmd, v8, v32, R134 -/
  | encP8P32 (cmd v8 : Byte) (v32 : BitVec 32)
  /-- XFER len, R150 -/
  | xfer (len : BitVec 4)
  /-- SETADDR v8, R180 -/
  | setaddr (v8 : Byte)
  /-- DEC_STATUS, R141 -/
  | decStatus
  /-- DEC_I16, R142 -/
  | decI16
  /-- DEC_I32, R143 -/
  | decI32
  /-- DEC_POS64, R144 -/
  | decPos64
  /-- CSUM_CLR, R122 -/
  | csumClr
  /-- CSUM_ADD v8, R123 -/
  | csumAdd (v8 : Byte)
deriving DecidableEq, Repr

end Sys2Proof
end

