-- ==== Sys2Proof/Decode.lean ====
section
/-! DEFINITION. The request descriptor (30_encoding.md Part B): its fields, the decoder, total and rejecting by name, the
encoder, and the match and mask table of R101. -/

namespace Sys2Proof

/-- The six fields of a descriptor, R98. -/
structure Fields where
  op : BitVec 4
  len : BitVec 4
  cmd : Byte
  v8 : Byte
  rsv : Byte
  v32 : BitVec 32
deriving DecidableEq, Repr

/-- R98: OP 63:60, LEN 59:56, CMD 55:48, V8 47:40, RSV 39:32, V32 31:0. -/
def Fields.ofWord (w : Desc) : Fields where
  op := w.extractLsb' 60 4
  len := w.extractLsb' 56 4
  cmd := w.extractLsb' 48 8
  v8 := w.extractLsb' 40 8
  rsv := w.extractLsb' 32 8
  v32 := w.extractLsb' 0 32

/-- R98, the other way: the fields side by side, OP most significant. -/
def Fields.toWord (f : Fields) : Desc :=
  f.op ++ f.len ++ f.cmd ++ f.v8 ++ f.rsv ++ f.v32

/-- Why a word is no operation (R109). Every reason has the one answer BADREQ (R110 (1), R202 (f)); the names are the
model's (log 15). -/
inductive Reject where
  /-- OP is 0x0, 0x7, 0xE or 0xF -/
  | reservedOp
  /-- RSV is not zero -/
  | rsvNotZero
  /-- LEN is not zero and the operation does not use it -/
  | lenUnused
  /-- CMD is not zero and the operation does not use it -/
  | cmdUnused
  /-- V8 is not zero and the operation does not use it -/
  | v8Unused
  /-- V32, or its upper half for ENC_P16, is not zero and the operation does not use it -/
  | v32Unused
deriving DecidableEq, Repr

/-- The first failed demand, or the operation. -/
def demand (demands : List (Bool × Reject)) (i : Instr) : Except Reject Instr :=
  match demands with
  | [] => .ok i
  | (met, why) :: rest => if met then demand rest i else .error why

/-- R100 (the OP numbers) and R109 (RSV and every field the operation does not use must be zero). -/
def decodeFields (f : Fields) : Except Reject Instr :=
  let rsv := (f.rsv == 0, Reject.rsvNotZero)
  let len := (f.len == 0, Reject.lenUnused)
  let cmd := (f.cmd == 0, Reject.cmdUnused)
  let v8 := (f.v8 == 0, Reject.v8Unused)
  let v32 := (f.v32 == 0, Reject.v32Unused)
  match f.op.toNat with
  | 0x1 => demand [rsv, len, v8, v32] (.encS f.cmd)
  | 0x2 => demand [rsv, len, v32] (.encP8 f.cmd f.v8)
  | 0x3 => demand [rsv, len, v8, (f.v32.extractLsb' 16 16 == 0, .v32Unused)]
      (.encP16 f.cmd (f.v32.extractLsb' 0 16))
  | 0x4 => demand [rsv, len] (.encP8P32 f.cmd f.v8 f.v32)
  | 0x5 => demand [rsv, cmd, v8, v32] (.xfer f.len)
  | 0x6 => demand [rsv, len, cmd, v32] (.setaddr f.v8)
  | 0x8 => demand [rsv, len, cmd, v8, v32] .decStatus
  | 0x9 => demand [rsv, len, cmd, v8, v32] .decI16
  | 0xA => demand [rsv, len, cmd, v8, v32] .decI32
  | 0xB => demand [rsv, len, cmd, v8, v32] .decPos64
  | 0xC => demand [rsv, len, cmd, v8, v32] .csumClr
  | 0xD => demand [rsv, len, cmd, v32] (.csumAdd f.v8)
  | _ => .error .reservedOp

/-- The decoder: any 64-bit word, to the operation it selects or the reason it selects none (R101, R109). -/
def decode (w : Desc) : Except Reject Instr := decodeFields (Fields.ofWord w)

/-- The descriptor fields of an operation (R98, R100): a field it does not use is zero. -/
def Instr.fields : Instr → Fields
  | .encS cmd => ⟨0x1#4, 0#4, cmd, 0#8, 0#8, 0#32⟩
  | .encP8 cmd v8 => ⟨0x2#4, 0#4, cmd, v8, 0#8, 0#32⟩
  | .encP16 cmd v16 => ⟨0x3#4, 0#4, cmd, 0#8, 0#8, 0#16 ++ v16⟩
  | .encP8P32 cmd v8 v32 => ⟨0x4#4, 0#4, cmd, v8, 0#8, v32⟩
  | .xfer len => ⟨0x5#4, len, 0#8, 0#8, 0#8, 0#32⟩
  | .setaddr v8 => ⟨0x6#4, 0#4, 0#8, v8, 0#8, 0#32⟩
  | .decStatus => ⟨0x8#4, 0#4, 0#8, 0#8, 0#8, 0#32⟩
  | .decI16 => ⟨0x9#4, 0#4, 0#8, 0#8, 0#8, 0#32⟩
  | .decI32 => ⟨0xA#4, 0#4, 0#8, 0#8, 0#8, 0#32⟩
  | .decPos64 => ⟨0xB#4, 0#4, 0#8, 0#8, 0#8, 0#32⟩
  | .csumClr => ⟨0xC#4, 0#4, 0#8, 0#8, 0#8, 0#32⟩
  | .csumAdd v8 => ⟨0xD#4, 0#4, 0#8, v8, 0#8, 0#32⟩

/-- The encoder: the descriptor of an operation. -/
def encode (i : Instr) : Desc := i.fields.toWord

/-- The operation's name in R100. -/
def Instr.mnemonic : Instr → String
  | .encS _ => "ENC_S"
  | .encP8 _ _ => "ENC_P8"
  | .encP16 _ _ => "ENC_P16"
  | .encP8P32 _ _ _ => "ENC_P8P32"
  | .xfer _ => "XFER"
  | .setaddr _ => "SETADDR"
  | .decStatus => "DEC_STATUS"
  | .decI16 => "DEC_I16"
  | .decI32 => "DEC_I32"
  | .decPos64 => "DEC_POS64"
  | .csumClr => "CSUM_CLR"
  | .csumAdd _ => "CSUM_ADD"

/-- A row of R101's table. -/
structure Row where
  mnemonic : String
  matchBits : Desc
  maskBits : Desc
deriving DecidableEq, Repr

/-- R101: a word selects the row exactly when (w AND mask) = match. -/
abbrev Row.Selects (r : Row) (w : Desc) : Prop := w &&& r.maskBits = r.matchBits

/-- R101's table. The decoder does not use it: that both agree is a claim. -/
def opcodeTable : List Row :=
  [ ⟨"ENC_S", 0x1000000000000000#64, 0xFF00FFFFFFFFFFFF#64⟩,
    ⟨"ENC_P8", 0x2000000000000000#64, 0xFF0000FFFFFFFFFF#64⟩,
    ⟨"ENC_P16", 0x3000000000000000#64, 0xFF00FFFFFFFF0000#64⟩,
    ⟨"ENC_P8P32", 0x4000000000000000#64, 0xFF0000FF00000000#64⟩,
    ⟨"XFER", 0x5000000000000000#64, 0xF0FFFFFFFFFFFFFF#64⟩,
    ⟨"SETADDR", 0x6000000000000000#64, 0xFFFF00FFFFFFFFFF#64⟩,
    ⟨"DEC_STATUS", 0x8000000000000000#64, 0xFFFFFFFFFFFFFFFF#64⟩,
    ⟨"DEC_I16", 0x9000000000000000#64, 0xFFFFFFFFFFFFFFFF#64⟩,
    ⟨"DEC_I32", 0xA000000000000000#64, 0xFFFFFFFFFFFFFFFF#64⟩,
    ⟨"DEC_POS64", 0xB000000000000000#64, 0xFFFFFFFFFFFFFFFF#64⟩,
    ⟨"CSUM_CLR", 0xC000000000000000#64, 0xFFFFFFFFFFFFFFFF#64⟩,
    ⟨"CSUM_ADD", 0xD000000000000000#64, 0xFFFF00FFFFFFFFFF#64⟩ ]

/-- The descriptor whose bits the opcode table numbers as `w`: the descriptor is one 64-bit word, so the table's bit n
is its bit n, and the bits above `nbits` are zero. -/
def descOfTable (nbits w : Nat) : Desc := BitVec.ofNat 64 (w % 2 ^ nbits)

/-- What the decoder reads from a row's word; a descriptor has 64 bits and no more. -/
def decodeTableWord (nbits w : Nat) : Option Instr :=
  if nbits ≤ 64 then
    match decode (descOfTable nbits w) with
    | .ok i => some i
    | .error _ => none
  else none

end Sys2Proof
end

