-- ==== Sys2Proof/Config.lean ====
section
/-! DEFINITION. What an implementation fixes (the parameters of R6 to R9), what the environment may do, and the values
the spec leaves free. -/

namespace Sys2Proof.Config

/-- How the serial link frames one byte, R8 and R207. -/
structure Framing where
  /-- data bits of one byte on the line -/
  dataBits : Nat
  /-- whether a parity bit follows them -/
  parity : Bool
  /-- stop bits -/
  stopBits : Nat
deriving DecidableEq, Repr

/-- The framing of R8: 8 data bits, no parity, 1 stop bit. -/
def Framing.eightN1 : Framing where
  dataBits := 8
  parity := false
  stopBits := 1

/-- Bit times of one byte on the line, R245; the one start bit is log 21. -/
def Framing.bitTimes (f : Framing) : Nat := 1 + f.dataBits + f.parity.toNat + f.stopBits

/-- The implementation parameters, R6 to R9. Each is an argument of the model (R6, R7, R9); the one argument `step` has
is the state, so the state carries them and no step writes them (log 5). -/
structure Params where
  /-- P_TIMEOUT_MS, R6 -/
  timeoutMs : Nat
  /-- P_MAX_ATTEMPTS, R7: counts every send, the first included -/
  maxAttempts : Nat
  /-- P_BAUD, R8: describes the link outside the block; no step reads it -/
  baud : Nat
  /-- the framing that goes with P_BAUD, R8 and 92_eei_decisions.md section 2; no step reads it -/
  framing : Framing
  /-- P_TICK_MS, R9 -/
  tickMs : Nat
  /-- P_MAX_FRAME, R9: capacity of TXBUF and of RXBUF, and the largest legal expected length -/
  maxFrame : Nat
  /-- P_MIN_RXLEN, R9 -/
  minRxLen : Nat
  /-- P_ADDR_RESET, R9 -/
  addrReset : Byte
  /-- P_RX_PER_TICK, R9 and R77: a bound the environment keeps; no step reads it -/
  rxPerTick : Nat
deriving DecidableEq, Repr

/-- The defaults shown in R6 to R9. -/
def Params.default : Params where
  timeoutMs := 3000
  maxAttempts := 3
  baud := 38400
  framing := .eightN1
  tickMs := 1
  maxFrame := 8
  minRxLen := 3
  addrReset := 0xE0#8
  rxPerTick := 4

/-- P_TIMEOUT_TICKS = P_TIMEOUT_MS / P_TICK_MS, R9. -/
def Params.timeoutTicks (p : Params) : Nat := p.timeoutMs / p.tickMs

/-- R245: the time `count` bytes take on the line back to back, in nanoseconds, rounded down. No step reads it. -/
def Params.lineTimeNs (p : Params) (count : Nat) : Nat := count * p.framing.bitTimes * 1000000000 / p.baud

/-- R245: how many bytes can arrive within one tick, rounded up; P_RX_PER_TICK's default. No step reads it. -/
def Params.lineBytesPerTick (p : Params) : Nat :=
  let bitTimesPerTick := p.baud * p.tickMs
  let perByte := 1000 * p.framing.bitTimes
  (bitTimesPerTick + (perByte - 1)) / perByte

/-- The constraints on the parameters: R6, R7, R9 and the table of 92_eei_decisions.md section 2. -/
abbrev Params.Legal (p : Params) : Prop :=
  1 ≤ p.timeoutMs ∧ 1 ≤ p.tickMs ∧ p.timeoutMs % p.tickMs = 0 ∧ p.timeoutTicks ≤ 65534 ∧
  1 ≤ p.maxAttempts ∧ p.maxAttempts ≤ 15 ∧
  8 ≤ p.maxFrame ∧ p.maxFrame ≤ 15 ∧
  3 ≤ p.minRxLen ∧ p.minRxLen ≤ p.maxFrame ∧
  1 ≤ p.rxPerTick

/-- LINK-TX's answer to one write, R43 and R153. -/
inductive WriteAnswer where
  /-- all bytes were taken -/
  | ok
  /-- a link write error after the first `emitted` bytes of the frame went out (all of them, if the frame is no
  longer than that) -/
  | err (emitted : Nat)
deriving DecidableEq, Repr, Inhabited

/-- One move of the world around the block: R2's agents, and the reset input of R220. -/
inductive Move where
  /-- HOST presents a request; it waits at the host until READY = 1 (R40, R201) -/
  | present (w : Desc)
  /-- LINK-RX appends one byte to RXQ (R164) -/
  | append (b : Byte)
  /-- CLOCK delivers a TICK (R44) -/
  | tick
  /-- ENGINE takes the step enabled for it, if one is (R151); `answer` is what LINK-TX replies should it be SEND -/
  | engine (answer : WriteAnswer)
  /-- the hardware reset input acts (R220); `queued` is the arbitrary content of RXQ after it (R221) -/
  | reset (queued : List Byte)
deriving DecidableEq, Repr, Inhabited

/-- FREE VALUE (log 1). What the environment does once the agenda is used up, move by move: any schedule and any draw
(U6, U7, U9, U11). Nothing is known of it. -/
opaque environment : Nat → Move

/-- FREE VALUE (log 4). RXQ after the power-on reset: any finite byte sequence (R35, R221, U8). -/
opaque rxqAtReset : List Byte

end Sys2Proof.Config
end

