-- ==== Sys2Proof/Machine/State.lean ====
section
/-! DEFINITION. Everything the spec gives the machine (10_state.md R20, R35, R36, R41), the model's own fields, the
reasons a step can stop, and the state after reset (R45, R221). -/

namespace Sys2Proof.Machine

/-- The engine states, R29. -/
inductive Fsm where
  /-- no call in progress -/
  | idle
  /-- the next engine step flushes RXQ and writes the frame -/
  | send
  /-- receiving, no byte accepted yet -/
  | sync
  /-- receiving, at least one byte accepted -/
  | accum
deriving DecidableEq, Repr

/-- The outcome of the most recent call, R30. -/
inductive Res where
  /-- NONE: no call has ended yet, or one is running -/
  | none
  /-- OK: a validated frame is in RXBUF -/
  | ok
  /-- ERR_TIMEOUT: the last attempt timed out -/
  | errTimeout
  /-- ERR_WRITE: the last attempt's write failed -/
  | errWrite
deriving DecidableEq, Repr

/-- Acknowledge codes of the request channel, R41. -/
inductive Ack where
  | accepted
  | badReq
deriving DecidableEq, Repr

/-- Why the machine stops with a fault. The block itself has none (R191 is complete, and all of it is next states). -/
inductive Fault where
  /-- An index that is not in a frame buffer (R60 (3): indices 0 to P_MAX_FRAME - 1). Raised by the ENC and DEC
  operations, SEND and RXBYTE. Safe: the model stops; no state that meets the invariant of R38 gets there (R191: "no
  buffer overflow"). Log 9. -/
  | bufferIndex
deriving DecidableEq, Repr

/-- Why an instruction is refused by the model. The block's own refusal, BADREQ, is no refusal of the model: it is a
next state (log 6). -/
inductive Refusal where
  /-- Raised by `exec` for an instruction that has no meaning yet; no arm does. Safe: the model stops. -/
  | notModelled (mnemonic : String)
deriving DecidableEq, Repr

/-- The state of the block (R20), of the link side (R35, R36), of the request channel (R41), and the model's own
bookkeeping of the environment (logs 1, 3, 5). -/
structure State where
  /-- ADDR, R21 -/
  addr : Byte
  /-- TXBUF, R22: P_MAX_FRAME bytes -/
  txbuf : List Byte
  /-- TXLEN, R23 -/
  txlen : BitVec 4
  /-- RXBUF, R24: P_MAX_FRAME bytes -/
  rxbuf : List Byte
  /-- RXCNT, R25 -/
  rxcnt : BitVec 4
  /-- RXLEN, R26 -/
  rxlen : BitVec 4
  /-- ACC, R27 -/
  acc : Byte
  /-- TIMER, R28 -/
  timer : BitVec 16
  /-- ATT, R31 -/
  att : BitVec 4
  /-- FSM, R29 -/
  fsm : Fsm
  /-- RES, R30 -/
  res : Res
  /-- RDATA, R32 -/
  rdata : BitVec 64
  /-- RVALID, R33 -/
  rvalid : Bool
  /-- RXQ, R35, oldest byte first -/
  rxq : List Byte
  /-- TXS, R36, oldest byte first -/
  txs : List Byte
  /-- the acknowledge of the last transferred request, R41; none since reset -/
  ack : Option Ack
  /-- the model's: descriptors presented by the HOST that wait for READY, oldest first (R40, R201; log 3) -/
  requests : List Desc
  /-- the model's: the environment's next moves, as far as fixed (log 1) -/
  agenda : List Config.Move
  /-- the model's: moves taken from `Config.environment` so far (log 1) -/
  drawn : Nat
  /-- the model's: the parameters, which no step writes (R37; log 5) -/
  cfg : Config.Params
deriving DecidableEq, Repr

/-- R45: every register after reset, for given parameters and a given content of RXQ. The host has presented nothing
and the environment's moves are free. -/
def State.initial (p : Config.Params) (queued : List Byte) : State where
  addr := p.addrReset
  txbuf := List.replicate p.maxFrame 0#8
  txlen := 0#4
  rxbuf := List.replicate p.maxFrame 0#8
  rxcnt := 0#4
  rxlen := 0#4
  acc := 0#8
  timer := 0#16
  att := 0#4
  fsm := .idle
  res := .none
  rdata := 0#64
  rvalid := false
  rxq := queued
  txs := []
  ack := Option.none
  requests := []
  agenda := []
  drawn := 0
  cfg := p

/-- The machine right after hardware reset, with the default parameters (R45, R221); RXQ is unspecified there. -/
def State.reset : State := State.initial Config.Params.default Config.rxqAtReset

end Sys2Proof.Machine
end

