-- ==== Sys2Proof/Machine/Ops.lean ====
section
/-! DEFINITION. The named operations over the registers, the buffers and the link (00_scope.md R13, R14), the checksum
(40_checksum.md), the request channel's answers (R41), attempt failure, which is the block's one exception entry (R154),
and hardware reset (R220). -/

namespace Sys2Proof.Machine

/-! ### Checksum -/

/-- R120: the arithmetic sum of the first `count` bytes, modulo 256. -/
def checksum (bytes : List Byte) (count : Nat) : Byte :=
  BitVec.ofNat 8 ((bytes.take count).map BitVec.toNat).sum

/-- `B[i]` of a byte sequence, R11. Every caller has checked that the index exists. -/
def byteAt (bytes : List Byte) (i : Nat) : Byte := bytes.getD i 0#8

/-- R125: the last of the first `n` bytes is the sum of those before it. -/
abbrev FrameOk (f : List Byte) (n : Nat) : Prop := byteAt f (n - 1) = checksum f (n - 1)

/-- `ACC <- 0`, R27. -/
def State.accClear (s : State) : State := { s with acc := 0#8 }

/-- `ACC <- (ACC + b) mod 256`, R27. -/
def State.accAdd (b : Byte) (s : State) : State := { s with acc := s.acc + b }

/-- Clear, then add each byte in order: the one pattern in which the block uses ACC (R124). -/
def State.accSum (bytes : List Byte) (s : State) : State :=
  bytes.foldl (fun t b => t.accAdd b) s.accClear

/-! ### Frame buffers -/

/-- The buffers have the capacity P_MAX_FRAME and the parameters keep their constraints: what every step keeps of the
state's form, whatever it does (R22, R24, R9). -/
abbrev State.BuffersWf (s : State) : Prop :=
  s.cfg.Legal ∧ s.txbuf.length = s.cfg.maxFrame ∧ s.rxbuf.length = s.cfg.maxFrame

/-- A frame put into a buffer from index 0; the bytes after it are left alone (R22). None if an index does not exist. -/
def putFrame (frame buffer : List Byte) : Option (List Byte) :=
  if frame.length ≤ buffer.length then some (frame ++ buffer.drop frame.length) else none

/-- The frame a write sends: TXBUF[0 .. TXLEN-1], R152. -/
def State.txFrame (s : State) : List Byte := s.txbuf.take s.txlen.toNat

/-! ### Link primitives, R14 -/

/-- RxAvail(): RXQ is not empty. -/
def State.rxAvail (s : State) : Bool := !s.rxq.isEmpty

/-- RxPop(): the oldest byte of RXQ, and the state without it; none if RXQ is empty. -/
def State.rxPop (s : State) : Option (Byte × State) :=
  match s.rxq with
  | [] => none
  | b :: rest => some (b, { s with rxq := rest })

/-- RxFlush(): RXQ is emptied. -/
def State.rxFlush (s : State) : State := { s with rxq := [] }

/-- LINK-RX appends one byte, R164. -/
def State.rxAppend (b : Byte) (s : State) : State := { s with rxq := s.rxq ++ [b] }

/-- TxWrite(frame) with LINK-TX's answer: on `ok` all of it went out, on `err k` its first k bytes (R43, R153). -/
def State.txWrite (frame : List Byte) (answer : Config.WriteAnswer) (s : State) : State :=
  match answer with
  | .ok => { s with txs := s.txs ++ frame }
  | .err emitted => { s with txs := s.txs ++ frame.take emitted }

/-! ### The request channel, R40 and R41 -/

/-- READY = (FSM = IDLE), R40. -/
def State.ready (s : State) : Bool := decide (s.fsm = .idle)

/-- Receiving: SYNC or ACCUM (R19). -/
def State.receiving (s : State) : Bool := decide (s.fsm = .sync) || decide (s.fsm = .accum)

/-- `ack A`: the acknowledge code the host gets, R14. -/
def State.acknowledge (a : Ack) (s : State) : State := { s with ack := some a }

/-- `ack BADREQ`: the request is refused, nothing else changes (R41, R196; log 6). -/
def badReq (s : State) : State := s.acknowledge .badReq

/-- A host operation is taken only while READY = 1; otherwise the host waits: nothing happens and nothing is
acknowledged (R40, U14; log 7). -/
def hostOp (s : State) (taken : State → Host.Outcome State Fault Refusal) : Host.Outcome State Fault Refusal :=
  if s.ready then taken s else .next s

/-! ### Attempt failure (the block's exception entry), R154, R192 to R195 -/

/-- Why an attempt failed, R154. -/
inductive Cause where
  | timeout
  | write
deriving DecidableEq, Repr

/-- The outcome a call records when its last attempt failed for this cause, R154. -/
def Cause.res : Cause → Res
  | .timeout => .errTimeout
  | .write => .errWrite

/-- `RXCNT <- 0 ; ACC <- 0`: nothing accepted. -/
def State.clearReceive (s : State) : State := { s with rxcnt := 0#4, acc := 0#8 }

/-- R154. ATT already counts the attempt that failed: another attempt while ATT < P_MAX_ATTEMPTS, else the call fails
(TRANSPORT_FAILURE, R195). There is nothing to return from (R199). -/
def attemptFail (cause : Cause) (s : State) : State :=
  if s.att.toNat < s.cfg.maxAttempts then { s.clearReceive with fsm := .send }
  else { s.clearReceive with res := cause.res, fsm := .idle }

/-! ### Hardware reset, R220, R221, R224 -/

/-- Every register back to R45, TXS emptied, RXQ whatever it then holds; what the host and the environment still have in
mind is not the block's and stays (log 8). -/
def hardwareReset (queued : List Byte) (s : State) : State :=
  { State.initial s.cfg queued with requests := s.requests, agenda := s.agenda, drawn := s.drawn }

end Sys2Proof.Machine
end

