-- ==== Sys2Proof/Machine/Checksum.lean ====
section
/-! DEFINITION. CSUM_CLR and CSUM_ADD, 40_checksum.md. -/

namespace Sys2Proof.Machine

/-- CSUM_CLR, R122. -/
def execCsumClr (s : State) : Host.Outcome State Fault Refusal :=
  hostOp s fun s => .next (s.accClear.acknowledge .accepted)

/-- CSUM_ADD v8, R123. -/
def execCsumAdd (v8 : Byte) (s : State) : Host.Outcome State Fault Refusal :=
  hostOp s fun s => .next ((s.accAdd v8).acknowledge .accepted)

end Sys2Proof.Machine
end

