-- ==== Sys2Proof/Machine/Operands.lean ====
section
/-! DEFINITION. Operand assembly: descriptor operands to frame bytes (R95), frame bytes to values (R96, R141 to R144),
the outbound field views (R135), and the inverse direction, what a device sends for a value (R146). -/

namespace Sys2Proof.Machine

/-! ### Outbound, R95: a frame's bytes before the trailer, big-endian (R62) -/

/-- Format S, R131. -/
def bodyS (addr cmd : Byte) : List Byte := [addr, cmd]

/-- Format P8, R132. -/
def bodyP8 (addr cmd v8 : Byte) : List Byte := [addr, cmd, v8]

/-- Format P16, R133: V32[15:8], then V32[7:0]. -/
def bodyP16 (addr cmd : Byte) (v16 : BitVec 16) : List Byte :=
  [addr, cmd, v16.extractLsb' 8 8, v16.extractLsb' 0 8]

/-- Format P8P32, R134: V8, then V32 most significant byte first. -/
def bodyP8P32 (addr cmd v8 : Byte) (v32 : BitVec 32) : List Byte :=
  [addr, cmd, v8, v32.extractLsb' 24 8, v32.extractLsb' 16 8, v32.extractLsb' 8 8, v32.extractLsb' 0 8]

/-! ### Inbound, R96 -/

/-- Big-endian combination of bytes, as an unsigned number (R62). -/
def beValue (bytes : List Byte) : Nat := bytes.foldl (fun v b => v * 256 + b.toNat) 0

/-- `signed_W(v)`, R12: two's complement (log 12). -/
def signedOf (width v : Nat) : Int :=
  if v < 2 ^ (width - 1) then (v : Int) else (v : Int) - (2 ^ width : Nat)

/-- R141: zext_64(f[1]). -/
def valueStatus (f : List Byte) : BitVec 64 := BitVec.ofNat 64 (byteAt f 1).toNat

/-- R142: signed_16 of f[1..2]. -/
def valueI16 (f : List Byte) : BitVec 64 :=
  BitVec.ofInt 64 (signedOf 16 (beValue [byteAt f 1, byteAt f 2]))

/-- f[1..4], big-endian. -/
def carrierBytes (f : List Byte) : List Byte := [byteAt f 1, byteAt f 2, byteAt f 3, byteAt f 4]

/-- R143: signed_32 of f[1..4]. -/
def valueI32 (f : List Byte) : BitVec 64 := BitVec.ofInt 64 (signedOf 32 (beValue (carrierBytes f)))

/-- R144: the signed carrier f[1..4] times 65536, plus the unsigned sub-position f[5..6]. -/
def valuePos64 (f : List Byte) : BitVec 64 :=
  BitVec.ofInt 64
    (signedOf 32 (beValue (carrierBytes f)) * 65536 + (beValue [byteAt f 5, byteAt f 6] : Nat))

/-! ### Outbound field views, R135 (pure functions of a frame, no hardware operations) -/

/-- OUT_ADDR -/
def outAddr (t : List Byte) : Byte := byteAt t 0

/-- OUT_CMD -/
def outCmd (t : List Byte) : Byte := byteAt t 1

/-- OUT_V8, formats P8 and P8P32 -/
def outV8 (t : List Byte) : Byte := byteAt t 2

/-- OUT_V16, format P16 -/
def outV16 (t : List Byte) : BitVec 16 := byteAt t 2 ++ byteAt t 3

/-- OUT_V32, format P8P32 -/
def outV32 (t : List Byte) : BitVec 32 := byteAt t 3 ++ byteAt t 4 ++ byteAt t 5 ++ byteAt t 6

/-- OUT_CSUM -/
def outCsum (t : List Byte) : Byte := byteAt t (t.length - 1)

/-! ### Inverse direction, R146: an inbound frame that carries given bytes or a given value -/

/-- A body with its checksum after it (R90). -/
def withTrailer (body : List Byte) : List Byte := body ++ [checksum body body.length]

/-- `count` bytes of a number, most significant first. -/
def beBytes (count v : Nat) : List Byte :=
  match count with
  | 0 => []
  | k + 1 => BitVec.ofNat 8 (v / 256 ^ k) :: beBytes k v

/-- The bytes of `x mod 2^(8 * count)`, most significant first. -/
def beBytesInt (count : Nat) (x : Int) : List Byte := beBytes count (x % (2 ^ (8 * count) : Nat)).toNat

/-- Inbound format RS, R94. -/
def frameStatus (addr status : Byte) : List Byte := withTrailer [addr, status]

/-- Inbound format R16 for a signed 16-bit value. -/
def frameI16 (addr : Byte) (x : Int) : List Byte := withTrailer (addr :: beBytesInt 2 x)

/-- Inbound format R32 for a signed 32-bit value. -/
def frameI32 (addr : Byte) (x : Int) : List Byte := withTrailer (addr :: beBytesInt 4 x)

/-- Inbound format R64 for a position. -/
def framePos64 (addr : Byte) (x : Int) : List Byte := withTrailer (addr :: beBytesInt 6 x)

end Sys2Proof.Machine
end

