-- ==== Sys2Proof/Machine/DecodeOps.lean ====
section
/-! DEFINITION. DEC_STATUS, DEC_I16, DEC_I32 and DEC_POS64, 42_decode.md. -/

namespace Sys2Proof.Machine

/-- `RDATA <- v ; RVALID <- valid ; ack ACCEPTED`, R140. -/
def State.deliver (v : BitVec 64) (valid : Bool) (s : State) : State :=
  { s with rdata := v, rvalid := valid }.acknowledge .accepted

/-- R140, its three cases in order: no validated frame, a frame too short for the value, the value. The fault is for a
frame buffer that lacks the bytes read (log 9). -/
def decodeFrame (need : Nat) (value : List Byte → BitVec 64) (s : State) : Host.Outcome State Fault Refusal :=
  if s.res ≠ .ok then .next (s.deliver 0#64 false)
  else if s.rxlen.toNat < need then .next (badReq s)
  else if s.rxbuf.length < need then .fault .bufferIndex
  else .next (s.deliver (value s.rxbuf) true)

/-- DEC_STATUS, R141. -/
def execDecStatus (s : State) : Host.Outcome State Fault Refusal :=
  hostOp s (decodeFrame 3 valueStatus)

/-- DEC_I16, R142. -/
def execDecI16 (s : State) : Host.Outcome State Fault Refusal :=
  hostOp s (decodeFrame 4 valueI16)

/-- DEC_I32, R143. -/
def execDecI32 (s : State) : Host.Outcome State Fault Refusal :=
  hostOp s (decodeFrame 6 valueI32)

/-- DEC_POS64, R144. -/
def execDecPos64 (s : State) : Host.Outcome State Fault Refusal :=
  hostOp s (decodeFrame 8 valuePos64)

end Sys2Proof.Machine
end

