-- ==== Sys2Proof/Machine/Encode.lean ====
section
/-! DEFINITION. ENC_S, ENC_P8, ENC_P16 and ENC_P8P32, 41_encode.md. -/

namespace Sys2Proof.Machine

/-- What every ENC operation does with the bytes before its trailer, R130: the sum goes through ACC, the frame into
TXBUF from index 0, its length into TXLEN. -/
def encodeFrame (body : List Byte) (s : State) : Host.Outcome State Fault Refusal :=
  let s := s.accSum body
  let frame := body ++ [s.acc]
  match putFrame frame s.txbuf with
  | some buffer =>
    .next ({ s with txbuf := buffer, txlen := BitVec.ofNat 4 frame.length }.acknowledge .accepted)
  | none => .fault .bufferIndex

/-- ENC_S cmd, R131. -/
def execEncS (cmd : Byte) (s : State) : Host.Outcome State Fault Refusal :=
  hostOp s fun s => encodeFrame (bodyS s.addr cmd) s

/-- ENC_P8 cmd, v8, R132. -/
def execEncP8 (cmd v8 : Byte) (s : State) : Host.Outcome State Fault Refusal :=
  hostOp s fun s => encodeFrame (bodyP8 s.addr cmd v8) s

/-- ENC_P16 cmd, v16, R133. -/
def execEncP16 (cmd : Byte) (v16 : BitVec 16) (s : State) : Host.Outcome State Fault Refusal :=
  hostOp s fun s => encodeFrame (bodyP16 s.addr cmd v16) s

/-- ENC_P8P32 cmd, v8, v32, R134. -/
def execEncP8P32 (cmd v8 : Byte) (v32 : BitVec 32) (s : State) : Host.Outcome State Fault Refusal :=
  hostOp s fun s => encodeFrame (bodyP8P32 s.addr cmd v8 v32) s

end Sys2Proof.Machine
end

