-- ==== Sys2Proof/Machine/System.lean ====
section
/-! DEFINITION. SETADDR, 44_system.md. -/

namespace Sys2Proof.Machine

/-- SETADDR v8, R180. -/
def execSetaddr (v8 : Byte) (s : State) : Host.Outcome State Fault Refusal :=
  hostOp s fun s => .next ({ s with addr := v8 }.acknowledge .accepted)

end Sys2Proof.Machine
end

