-- ==== Sys2Proof/WellFormed.lean ====
section
/-! DEFINITION. Which operations are legal by value, before any state is looked at. -/

namespace Sys2Proof

/-- R104: an expected length is legal from P_MIN_RXLEN to P_MAX_FRAME. -/
def lenLegal (p : Config.Params) (len : BitVec 4) : Bool :=
  decide (p.minRxLen ≤ len.toNat) && decide (len.toNat ≤ p.maxFrame)

/-- Legal by value: only XFER has operand values that are refused (R104, R110 (2)); every address, command and payload
is legal (R106 to R108). An ill-formed XFER still decodes (R101) and is answered with BADREQ (R150). -/
def Instr.wellFormed (p : Config.Params) : Instr → Bool
  | .encS _ => true
  | .encP8 _ _ => true
  | .encP16 _ _ => true
  | .encP8P32 _ _ _ => true
  | .xfer len => lenLegal p len
  | .setaddr _ => true
  | .decStatus => true
  | .decI16 => true
  | .decI32 => true
  | .decPos64 => true
  | .csumClr => true
  | .csumAdd _ => true

end Sys2Proof
end

