-- ==== Sys2Proof/Machine/Transport.lean ====
section
/-! DEFINITION. XFER and the engine steps SEND, RXBYTE and TICK, 43_transport.md. -/

namespace Sys2Proof.Machine

/-- XFER len, R150: starts a call, or is refused. -/
def execXfer (len : BitVec 4) (s : State) : Host.Outcome State Fault Refusal :=
  hostOp s fun s =>
    if s.txlen = 0#4 ∨ lenLegal s.cfg len = false then .next (badReq s)
    else .next ({ s with rxlen := len, att := 0#4, res := .none, rvalid := false, fsm := .send }.acknowledge .accepted)

/-- SEND, R152: count the attempt, flush, clear, write; then receive, or fail the attempt. The fault is for a TXLEN
beyond the buffer (log 9). -/
def sendStep (answer : Config.WriteAnswer) (s : State) : Host.Outcome State Fault Refusal :=
  if s.txbuf.length < s.txlen.toNat then .fault .bufferIndex
  else
    let s := ({ s with att := s.att + 1#4 }.rxFlush.clearReceive).txWrite s.txFrame answer
    match answer with
    | .ok => .next { s with timer := 0#16, fsm := .sync }
    | .err _ => .next (attemptFail .write s)

/-- What RXBYTE does with an accepted byte, R155 (R202 (b) gives the order): store, restart the timer, test the length,
test the checksum. The fault is for an RXCNT beyond the buffer (log 9). -/
def acceptByte (b : Byte) (s : State) : Host.Outcome State Fault Refusal :=
  if s.rxbuf.length ≤ s.rxcnt.toNat then .fault .bufferIndex
  else
    let s := { s with rxbuf := s.rxbuf.set s.rxcnt.toNat b, timer := 0#16 }
    if s.rxcnt.toNat + 1 < s.rxlen.toNat then
      .next { s.accAdd b with rxcnt := s.rxcnt + 1#4, fsm := .accum }
    else if s.acc = b then
      .next { s with rxcnt := s.rxlen, res := .ok, fsm := .idle }
    else
      .next { s.clearReceive with fsm := .sync }

/-- RXBYTE, R155: examine one byte of RXQ; until one equals ADDR, bytes are discarded. With RXQ empty the step is not
enabled and nothing happens (R151). -/
def rxByteStep (s : State) : Host.Outcome State Fault Refusal :=
  match s.rxPop with
  | none => .next s
  | some (b, s) => if s.rxcnt = 0#4 ∧ b ≠ s.addr then .next s else acceptByte b s

/-- TICK, R158: it counts only while receiving, and the attempt fails when the incremented value exceeds
P_TIMEOUT_TICKS. -/
def tickStep (s : State) : State :=
  if s.receiving then
    let elapsed := s.timer.toNat + 1
    let s := { s with timer := BitVec.ofNat 16 elapsed }
    if s.cfg.timeoutTicks < elapsed then attemptFail .timeout s else s
  else s

/-- The engine's turn, R151: the step its state enables, if any. -/
def engineStep (answer : Config.WriteAnswer) (s : State) : Host.Outcome State Fault Refusal :=
  match s.fsm with
  | .idle => .next s
  | .send => sendStep answer s
  | .sync => rxByteStep s
  | .accum => rxByteStep s

end Sys2Proof.Machine
end

