-- ==== Sys2Proof/Machine/Dispatch.lean ====
section
/-! DEFINITION. One arm per operation of R100. -/

namespace Sys2Proof.Machine

def exec (i : Instr) (s : State) : Host.Outcome State Fault Refusal :=
  match i with
  | .encS cmd => Sys2Proof.Machine.execEncS cmd s
  | .encP8 cmd v8 => Sys2Proof.Machine.execEncP8 cmd v8 s
  | .encP16 cmd v16 => Sys2Proof.Machine.execEncP16 cmd v16 s
  | .encP8P32 cmd v8 v32 => Sys2Proof.Machine.execEncP8P32 cmd v8 v32 s
  | .xfer len => Sys2Proof.Machine.execXfer len s
  | .setaddr v8 => Sys2Proof.Machine.execSetaddr v8 s
  | .decStatus => Sys2Proof.Machine.execDecStatus s
  | .decI16 => Sys2Proof.Machine.execDecI16 s
  | .decI32 => Sys2Proof.Machine.execDecI32 s
  | .decPos64 => Sys2Proof.Machine.execDecPos64 s
  | .csumClr => Sys2Proof.Machine.execCsumClr s
  | .csumAdd v8 => Sys2Proof.Machine.execCsumAdd v8 s

end Sys2Proof.Machine
end

