-- ==== Sys2Proof/Machine/Schedule.lean ====
section
/-! DEFINITION. Who moves next: the transfer of a waiting request (R40), else one move of the environment (R2, R151,
R201; log 1). -/

namespace Sys2Proof.Machine

/-- The request the host transfers next, and the state without it: the oldest waiting one, and only while READY = 1
(R40, R201; log 2). This is the block's fetch. -/
def fetchRequest (s : State) : Option (Desc × State) :=
  if s.ready then
    match s.requests with
    | [] => none
    | w :: rest => some (w, { s with requests := rest })
  else none

/-- A transferred request is executed and answered at once (R40); a word that selects no operation is answered BADREQ
(R109, R110 (1)). -/
def transferRequest (w : Desc) (s : State) : Host.Outcome State Fault Refusal :=
  match decode w with
  | .ok i => exec i s
  | .error _ => .next (badReq s)

/-- The environment's next move: the agenda's first, or a free one once the agenda is used up (log 1). -/
def State.nextMove (s : State) : Config.Move :=
  match s.agenda with
  | m :: _ => m
  | [] => Config.environment s.drawn

/-- The state with that move taken. -/
def State.dropMove (s : State) : State :=
  match s.agenda with
  | _ :: rest => { s with agenda := rest }
  | [] => { s with drawn := s.drawn + 1 }

/-- One move of the environment. A TICK that falls while receiving with bytes in RXQ is held: the engine examines the
oldest byte, and the TICK stays next (R159; log 16). -/
def environmentStep (s : State) : Host.Outcome State Fault Refusal :=
  match s.nextMove with
  | .present w => .next { s.dropMove with requests := s.requests ++ [w] }
  | .append b => .next (s.dropMove.rxAppend b)
  | .tick => if s.receiving && s.rxAvail then rxByteStep s else .next (tickStep s.dropMove)
  | .engine answer => engineStep answer s.dropMove
  | .reset queued => .next (hardwareReset queued s.dropMove)

/-- The state in which the host presents `w` before anything else it has waiting. -/
def presentFirst (w : Desc) (s : State) : State := { s with requests := w :: s.requests }

end Sys2Proof.Machine
end

