-- ==== Sys2Proof/Machine/Step.lean ====
section
/-! DEFINITION. One step of the whole machine. -/

namespace Sys2Proof.Machine

/-- One step: the waiting request the host may transfer (R40), else the environment's next move (R2). -/
def step (s : State) : Host.Outcome State Fault Refusal :=
  match fetchRequest s with
  | some (w, t) => transferRequest w t
  | none => environmentStep s

/-- `s` with a descriptor presented by the host, first in line. While READY = 1, as after reset, the next step transfers
it; during a call it waits, as R40 says (logs 3, 7). -/
def State.withFetchWord (s : State) (nbits w : Nat) : State := presentFirst (descOfTable nbits w) s

end Sys2Proof.Machine
end

