-- ==== Sys2Proof/Machine/Flags.lean ====
section
/-! DEFINITION. The numeric codes of R29, R30 and R41, the STATUS view (R34) and the read ports (R42). -/

namespace Sys2Proof.Machine

/-- R29: IDLE 0, SEND 1, SYNC 2, ACCUM 3. -/
def Fsm.code : Fsm → BitVec 2
  | .idle => 0#2
  | .send => 1#2
  | .sync => 2#2
  | .accum => 3#2

/-- R30: NONE 0, OK 1, ERR_TIMEOUT 2, ERR_WRITE 3. -/
def Res.code : Res → BitVec 2
  | .none => 0#2
  | .ok => 1#2
  | .errTimeout => 2#2
  | .errWrite => 3#2

/-- R41: ACCEPTED 0, BADREQ 1. -/
def Ack.code : Ack → Nat
  | .accepted => 0
  | .badReq => 1

/-- BUSY = (FSM != IDLE), R34. -/
def State.busy (s : State) : Bool := !s.ready

/-- SYNCED = (FSM = ACCUM), R34. -/
def State.synced (s : State) : Bool := decide (s.fsm = .accum)

/-- STATUS, R34: bit 0 BUSY, bits 2:1 RES, bit 3 SYNCED, bits 7:4 ATT. -/
def State.status (s : State) : BitVec 8 :=
  s.att ++ BitVec.ofBool s.synced ++ s.res.code ++ BitVec.ofBool s.busy

/-- What the host reads, at any time and without side effect (R42). -/
structure Ports where
  status : BitVec 8
  rdata : BitVec 64
  rvalid : BitVec 1
  ready : BitVec 1
  acc : Byte
deriving DecidableEq, Repr

/-- The read ports, R42. -/
def State.ports (s : State) : Ports where
  status := s.status
  rdata := s.rdata
  rvalid := BitVec.ofBool s.rvalid
  ready := BitVec.ofBool s.ready
  acc := s.acc

end Sys2Proof.Machine
end

