-- ==== Sys2Proof/Machine/TypedCalls.lean ====
section
/-! DEFINITION. What is written above single operations and moves: the typed calls (R113) and the events of the trace
notation with the operations' text (R112). -/

namespace Sys2Proof.Machine

/-- The seven typed calls, R113. -/
inductive TypedCall where
  | callS (cmd : Byte)
  | callS8 (cmd v8 : Byte)
  | callS16 (cmd : Byte) (v16 : BitVec 16)
  | callS8x32 (cmd v8 : Byte) (v32 : BitVec 32)
  | callI16 (cmd : Byte)
  | callI32 (cmd : Byte)
  | callPos (cmd : Byte)
deriving DecidableEq, Repr

/-- R113: each typed call is a fixed sequence of three operations. -/
def TypedCall.expansion : TypedCall → List Instr
  | .callS cmd => [.encS cmd, .xfer 3#4, .decStatus]
  | .callS8 cmd v8 => [.encP8 cmd v8, .xfer 3#4, .decStatus]
  | .callS16 cmd v16 => [.encP16 cmd v16, .xfer 3#4, .decStatus]
  | .callS8x32 cmd v8 v32 => [.encP8P32 cmd v8 v32, .xfer 3#4, .decStatus]
  | .callI16 cmd => [.encS cmd, .xfer 4#4, .decI16]
  | .callI32 cmd => [.encS cmd, .xfer 6#4, .decI32]
  | .callPos cmd => [.encS cmd, .xfer 8#4, .decPos64]

/-- The requests a typed call presents. The host's wait for READY before DEC (R113) is the request channel's (R40). -/
def TypedCall.requests (c : TypedCall) : List Desc := c.expansion.map encode

/-- The environment events of a trace, R112. -/
inductive TraceEvent where
  /-- `rx b1 b2 ...`: LINK-RX appends these bytes, then the engine examines them until RXQ is empty or the call ends -/
  | rx (bytes : List Byte)
  /-- `tick n` -/
  | tick (n : Nat)
  /-- `send ok` -/
  | sendOk
  /-- `send err k` -/
  | sendErr (k : Nat)
deriving DecidableEq, Repr

/-- The moves of an event, for a trace in which every `rx` finds RXQ empty; an engine turn after the call's end does
nothing. -/
def TraceEvent.moves : TraceEvent → List Config.Move
  | .rx bytes => bytes.map .append ++ List.replicate bytes.length (.engine .ok)
  | .tick n => List.replicate n .tick
  | .sendOk => [.engine .ok]
  | .sendErr k => [.engine (.err k)]

/-- The operation as R112 writes it: the mnemonic, then the operands in the order CMD, V8, V32 (or LEN), decimal. -/
def instrText (i : Instr) : String :=
  let operands : List Nat := match i with
    | .encS cmd => [cmd.toNat]
    | .encP8 cmd v8 => [cmd.toNat, v8.toNat]
    | .encP16 cmd v16 => [cmd.toNat, v16.toNat]
    | .encP8P32 cmd v8 v32 => [cmd.toNat, v8.toNat, v32.toNat]
    | .xfer len => [len.toNat]
    | .setaddr v8 => [v8.toNat]
    | .csumAdd v8 => [v8.toNat]
    | .decStatus => []
    | .decI16 => []
    | .decI32 => []
    | .decPos64 => []
    | .csumClr => []
  match operands with
  | [] => i.mnemonic
  | _ => i.mnemonic ++ " " ++ String.intercalate ", " (operands.map toString)

end Sys2Proof.Machine
end

