-- ==== Sys2Proof/Safety.lean ====
section
/-! DEFINITION. What a good state and a good environment are, in the words claims use: the invariants of R38, and the
assumptions about the environment that the step does not build in (R77). -/

namespace Sys2Proof.Machine

/-- R38 (a), as far as one state shows it: a legal TXLEN, and a frame in TXBUF that satisfies the frame invariant. -/
abbrev State.InvTx (s : State) : Prop :=
  s.txlen.toNat ∈ [0, 3, 4, 5, 8] ∧ (s.txlen ≠ 0#4 → FrameOk s.txbuf s.txlen.toNat)

/-- R38 (b). -/
abbrev State.InvSync (s : State) : Prop := s.fsm = .sync → s.rxcnt = 0#4 ∧ s.acc = 0#8

/-- R38 (c). -/
abbrev State.InvAccum (s : State) : Prop :=
  s.fsm = .accum →
    1 ≤ s.rxcnt.toNat ∧ s.rxcnt.toNat ≤ s.rxlen.toNat - 1 ∧
    byteAt s.rxbuf 0 = s.addr ∧ s.acc = checksum s.rxbuf s.rxcnt.toNat

/-- R38 (d). -/
abbrev State.InvBusy (s : State) : Prop :=
  s.fsm ≠ .idle →
    s.res = .none ∧ s.rvalid = false ∧ s.txlen ≠ 0#4 ∧
    s.cfg.minRxLen ≤ s.rxlen.toNat ∧ s.rxlen.toNat ≤ s.cfg.maxFrame

/-- R38 (e), with the bounds of R28 and R31 that hold in every state. -/
abbrev State.InvCount (s : State) : Prop :=
  (s.fsm = .send → s.att.toNat < s.cfg.maxAttempts) ∧
  (s.fsm = .sync ∨ s.fsm = .accum → 1 ≤ s.att.toNat ∧ s.timer.toNat ≤ s.cfg.timeoutTicks) ∧
  s.att.toNat ≤ s.cfg.maxAttempts ∧ s.timer.toNat ≤ s.cfg.timeoutTicks + 1

/-- R26: RXLEN is 0 before any XFER, a legal length after one. -/
abbrev State.InvLen (s : State) : Prop :=
  s.rxlen = 0#4 ∨ s.cfg.minRxLen ≤ s.rxlen.toNat ∧ s.rxlen.toNat ≤ s.cfg.maxFrame

/-- R38 (f), as far as one state shows it; the length is a legal one (R26). -/
abbrev State.InvOk (s : State) : Prop :=
  s.res = .ok →
    s.fsm = .idle ∧ s.rxcnt = s.rxlen ∧ s.rxlen ≠ 0#4 ∧ FrameOk s.rxbuf s.rxlen.toNat

/-- R38 (g). -/
abbrev State.InvFailed (s : State) : Prop :=
  s.res = .errTimeout ∨ s.res = .errWrite →
    s.fsm = .idle ∧ s.att.toNat = s.cfg.maxAttempts ∧ s.rxcnt = 0#4

/-- R38 (h). -/
abbrev State.InvValid (s : State) : Prop := s.rvalid = true → s.res = .ok

/-- The invariant of R38 over legal parameters and buffers of the stated capacity. R38 (a) and (f) also speak of the
value ADDR had earlier, which no state holds; the statements about ENC and RXBYTE say it. -/
abbrev State.Inv (s : State) : Prop :=
  s.BuffersWf ∧ s.InvTx ∧ s.InvSync ∧ s.InvAccum ∧ s.InvBusy ∧ s.InvCount ∧ s.InvLen ∧
  s.InvOk ∧ s.InvFailed ∧ s.InvValid

/-- R77: no more than `bound` appends before the next TICK, given that `seen` came since the last one. -/
def rateBounded (bound seen : Nat) : List Config.Move → Bool
  | [] => true
  | .append _ :: rest => decide (seen < bound) && rateBounded bound (seen + 1) rest
  | .tick :: rest => rateBounded bound 0 rest
  | _ :: rest => rateBounded bound seen rest

/-- What a link that delivers bytes with gaps looks like: before each byte a number of ticks, then the byte arrives and
the engine examines it. -/
def arrivals (bytes : List (Nat × Byte)) : List Config.Move :=
  bytes.flatMap fun (gap, b) => List.replicate gap .tick ++ [.append b, .engine .ok]

/-- An attempt that fails: by a write error after `k` bytes (`some k`), or by a write that succeeds and silence until
the timeout (`none`), R168 (b). -/
def failingAttempt (p : Config.Params) : Option Nat → List Config.Move
  | some k => [.engine (.err k)]
  | none => .engine .ok :: List.replicate (p.timeoutTicks + 1) .tick

/-- What that attempt puts on the link. -/
def attemptEmits (frame : List Byte) : Option Nat → List Byte
  | some k => frame.take k
  | none => frame

/-- The state after `n` steps, if none of them stopped. -/
def stepsFrom : Nat → State → Option State
  | 0, s => some s
  | n + 1, s =>
    match step s with
    | .next t => stepsFrom n t
    | .fault _ => none
    | .refused _ => none

/-! ### A call as the environment's moves go, R163 and R168 (b) -/

/-- The next step, in a call, is a SEND step (R152). -/
def State.sends (s : State) : Bool :=
  match s.nextMove with
  | .engine _ => decide (s.fsm = .send)
  | _ => false

/-- The next step, in a call, fails the attempt: a write error (R152), or a TICK past the timeout (R158) that no queued
byte holds back (R159, log 16). -/
def State.failsAttempt (s : State) : Bool :=
  match s.nextMove with
  | .engine (.err _) => decide (s.fsm = .send)
  | .tick => s.receiving && !s.rxAvail && decide (s.cfg.timeoutTicks < s.timer.toNat + 1)
  | _ => false

/-- In how many of the next `n` steps, up to the first that stops, the state before the step has the property. -/
def countSteps (p : State → Bool) : Nat → State → Nat
  | 0, _ => 0
  | n + 1, s =>
    (p s).toNat +
      match step s with
      | .next t => countSteps p n t
      | .fault _ => 0
      | .refused _ => 0

/-- The next `n` steps start within the call, none stops, and none is a hardware reset. -/
def staysInCall : Nat → State → Bool
  | 0, _ => true
  | n + 1, s =>
    !s.ready &&
      match s.nextMove, step s with
      | .reset _, _ => false
      | _, .next t => staysInCall n t
      | _, .fault _ => false
      | _, .refused _ => false

end Sys2Proof.Machine
end

