-- ==== Sys2Proof/Certificates/Slice0/Obligations.lean ====
section
/-! DEFINITION. The statements for the provers. Each docstring names the rule it formalises. -/

open Sys2Proof Sys2Proof.Machine Sys2Proof.Config

/-! ### Reset -/

/-- R45: what hardware reset sets, for every choice of the parameters and whatever RXQ then holds; `State.reset` is the
case of the default parameters, whose address is 0xE0. -/
def Obligations.ResetValues : Prop :=
  (∀ (p : Params) (queued : List Byte),
    let s := State.initial p queued
    s.addr = p.addrReset ∧ s.txbuf.length = p.maxFrame ∧ (∀ b ∈ s.txbuf, b = 0#8) ∧ s.txlen = 0#4 ∧
    s.rxbuf.length = p.maxFrame ∧ (∀ b ∈ s.rxbuf, b = 0#8) ∧ s.rxcnt = 0#4 ∧ s.rxlen = 0#4 ∧ s.acc = 0#8 ∧
    s.timer = 0#16 ∧ s.att = 0#4 ∧ s.fsm = .idle ∧ s.res = .none ∧ s.rdata = 0#64 ∧ s.rvalid = false ∧
    s.txs = [] ∧ s.rxq = queued) ∧
  (∃ queued, State.reset = State.initial Params.default queued) ∧ State.reset.addr = 0xE0#8 ∧
  State.reset.txbuf.length = 8 ∧ State.reset.rxbuf.length = 8

/-- 70_reset_and_hazards.md section 1 (R221, R222): after reset READY = 1 and STATUS reads 0x00, every XFER is refused,
and every DEC operation is accepted and delivers 0 with RVALID = 0. -/
def Obligations.AfterResetNothingToSendOrRead : Prop :=
  State.reset.ready = true ∧ State.reset.status = 0x00#8 ∧
  (∀ len, exec (.xfer len) State.reset = .next { State.reset with ack := some .badReq }) ∧
  (∀ i ∈ [Instr.decStatus, .decI16, .decI32, .decPos64],
    exec i State.reset = .next { State.reset with ack := some .accepted })

/-- R220, R224: the reset input acts during a call, and in IDLE with no request waiting, as soon as it is the
environment's move: every register is back at R45's value, TXS is empty, and RXQ is whatever the link then holds. In IDLE
with requests waiting it acts after those that the host then transfers, which is the model's order of moves, log 2. That
the waiting requests and the environment's moves outlive it is the model's choice too, log 8. -/
def Obligations.HardwareResetRestoresResetState : Prop :=
  ∀ (s : State) (queued : List Byte) (moves : List Move), s.agenda = .reset queued :: moves →
    ((s.fsm ≠ .idle ∨ s.requests = []) →
      step s = .next { State.initial s.cfg queued with
        requests := s.requests, agenda := moves, drawn := s.drawn }) ∧
    (s.fsm = .idle → s.BuffersWf →
      ∃ n t, n ≤ s.requests.length ∧ stepsFrom n s = some t ∧ t.requests = s.requests.drop n ∧
        step t = .next { State.initial s.cfg queued with
          requests := t.requests, agenda := moves, drawn := s.drawn })

/-! ### Parameters -/

/-- R8 and R207: the link has 38400 bit/s and 8N1 by default, and no step depends on what they are (that the parameters
stand in the state is log 5). -/
def Obligations.LinkParametersAreReadByNoStep : Prop :=
  Params.default.baud = 38400 ∧ Params.default.framing = ⟨8, false, 1⟩ ∧
  ∀ (s t : State) (b : Nat) (f : Framing), step s = .next t →
    step { s with cfg := { s.cfg with baud := b, framing := f } } =
      .next { t with cfg := { t.cfg with baud := b, framing := f } }

/-! ### The encoding operations and the accumulator -/

/-- R131, ENC_S: its descriptor (OP 0x1, CMD in 55:48, all else zero), its match and mask, its effect in IDLE, STATUS
unchanged. Everything the equation does not name is unchanged. -/
def Obligations.EncSBuildsFrame : Prop :=
  ∀ (cmd : Byte) (s : State),
    Fields.ofWord (encode (.encS cmd)) = ⟨0x1#4, 0#4, cmd, 0#8, 0#8, 0#32⟩ ∧
    encode (.encS cmd) &&& 0xFF00FFFFFFFFFFFF#64 = 0x1000000000000000#64 ∧
    (s.fsm = .idle → s.BuffersWf →
      let t : State := { s with
        txbuf := [s.addr, cmd, s.addr + cmd] ++ s.txbuf.drop 3
        txlen := 3#4
        acc := s.addr + cmd
        ack := some .accepted }
      exec (.encS cmd) s = .next t ∧ t.status = s.status)

/-- R132, ENC_P8. -/
def Obligations.EncP8BuildsFrame : Prop :=
  ∀ (cmd v8 : Byte) (s : State),
    Fields.ofWord (encode (.encP8 cmd v8)) = ⟨0x2#4, 0#4, cmd, v8, 0#8, 0#32⟩ ∧
    encode (.encP8 cmd v8) &&& 0xFF0000FFFFFFFFFF#64 = 0x2000000000000000#64 ∧
    (s.fsm = .idle → s.BuffersWf →
      let t : State := { s with
        txbuf := [s.addr, cmd, v8, s.addr + cmd + v8] ++ s.txbuf.drop 4
        txlen := 4#4
        acc := s.addr + cmd + v8
        ack := some .accepted }
      exec (.encP8 cmd v8) s = .next t ∧ t.status = s.status)

/-- R133, ENC_P16: every 16-bit operand is `hi ++ lo`, high byte first on the wire. -/
def Obligations.EncP16BuildsFrame : Prop :=
  ∀ (cmd hi lo : Byte) (s : State),
    Fields.ofWord (encode (.encP16 cmd (hi ++ lo))) = ⟨0x3#4, 0#4, cmd, 0#8, 0#8, 0#16 ++ (hi ++ lo)⟩ ∧
    encode (.encP16 cmd (hi ++ lo)) &&& 0xFF00FFFFFFFF0000#64 = 0x3000000000000000#64 ∧
    (s.fsm = .idle → s.BuffersWf →
      let t : State := { s with
        txbuf := [s.addr, cmd, hi, lo, s.addr + cmd + hi + lo] ++ s.txbuf.drop 5
        txlen := 5#4
        acc := s.addr + cmd + hi + lo
        ack := some .accepted }
      exec (.encP16 cmd (hi ++ lo)) s = .next t ∧ t.status = s.status)

/-- R134, ENC_P8P32: every 32-bit operand is `b3 ++ b2 ++ b1 ++ b0`, most significant byte first on the wire. -/
def Obligations.EncP8P32BuildsFrame : Prop :=
  ∀ (cmd v8 b3 b2 b1 b0 : Byte) (s : State),
    Fields.ofWord (encode (.encP8P32 cmd v8 (b3 ++ b2 ++ b1 ++ b0))) =
      ⟨0x4#4, 0#4, cmd, v8, 0#8, b3 ++ b2 ++ b1 ++ b0⟩ ∧
    encode (.encP8P32 cmd v8 (b3 ++ b2 ++ b1 ++ b0)) &&& 0xFF0000FF00000000#64 = 0x4000000000000000#64 ∧
    (s.fsm = .idle → s.BuffersWf →
      let sum := s.addr + cmd + v8 + b3 + b2 + b1 + b0
      let t : State := { s with
        txbuf := [s.addr, cmd, v8, b3, b2, b1, b0, sum] ++ s.txbuf.drop 8
        txlen := 8#4
        acc := sum
        ack := some .accepted }
      exec (.encP8P32 cmd v8 (b3 ++ b2 ++ b1 ++ b0)) s = .next t ∧ t.status = s.status)

/-- 41_encode.md section 3, the law the spec itself marks as derived (R136): the frame an ENC operation leaves to be sent
reads back, through the field views of R135, as the address and the operands, has its format's length, and ends in the sum
of the bytes before it. -/
def Obligations.EncodedFrameReadsBack : Prop :=
  ∀ (s : State), s.fsm = .idle → s.BuffersWf →
    (∀ cmd, ∃ t, exec (.encS cmd) s = .next t ∧ t.txFrame.length = 3 ∧
      outAddr t.txFrame = s.addr ∧ outCmd t.txFrame = cmd ∧
      outCsum t.txFrame = checksum t.txFrame 2) ∧
    (∀ cmd v8, ∃ t, exec (.encP8 cmd v8) s = .next t ∧ t.txFrame.length = 4 ∧
      outAddr t.txFrame = s.addr ∧ outCmd t.txFrame = cmd ∧ outV8 t.txFrame = v8 ∧
      outCsum t.txFrame = checksum t.txFrame 3) ∧
    (∀ cmd v16, ∃ t, exec (.encP16 cmd v16) s = .next t ∧ t.txFrame.length = 5 ∧
      outAddr t.txFrame = s.addr ∧ outCmd t.txFrame = cmd ∧ outV16 t.txFrame = v16 ∧
      outCsum t.txFrame = checksum t.txFrame 4) ∧
    (∀ cmd v8 v32, ∃ t, exec (.encP8P32 cmd v8 v32) s = .next t ∧ t.txFrame.length = 8 ∧
      outAddr t.txFrame = s.addr ∧ outCmd t.txFrame = cmd ∧ outV8 t.txFrame = v8 ∧ outV32 t.txFrame = v32 ∧
      outCsum t.txFrame = checksum t.txFrame 7)

/-- R122, CSUM_CLR. -/
def Obligations.CsumClrClears : Prop :=
  encode .csumClr = 0xC000000000000000#64 ∧
  ∀ (s : State), s.fsm = .idle →
    let t : State := { s with acc := 0x00#8, ack := some .accepted }
    exec .csumClr s = .next t ∧ t.status = s.status

/-- R123, CSUM_ADD: the sum modulo 256, no carry kept. -/
def Obligations.CsumAddAdds : Prop :=
  ∀ (v8 : Byte) (s : State),
    Fields.ofWord (encode (.csumAdd v8)) = ⟨0xD#4, 0#4, 0#8, v8, 0#8, 0#32⟩ ∧
    (s.fsm = .idle →
      let t : State := { s with acc := BitVec.ofNat 8 ((s.acc.toNat + v8.toNat) % 256), ack := some .accepted }
      exec (.csumAdd v8) s = .next t ∧ t.status = s.status)

/-- 40_checksum.md sections 1 and 2 (R121 (c), R124): a CSUM_CLR and then one CSUM_ADD per byte, in any order, leave the
checksum of the bytes in ACC, by steps of the whole machine. That the waiting requests are transferred before any move of
the environment is the model's choice, log 2, and the queue they wait in is log 3. -/
def Obligations.CsumSequenceGivesChecksum : Prop :=
  ∀ (s : State) (bytes order : List Byte) (later : List Desc), s.fsm = .idle → order.Perm bytes →
    s.requests = encode .csumClr :: (order.map fun b => encode (.csumAdd b)) ++ later →
    stepsFrom (1 + bytes.length) s = some { s with
      requests := later
      acc := checksum bytes bytes.length
      ack := some .accepted }

/-- 40_checksum.md section 1 (R121 (d), (e)): a frame with one byte changed, trailer included, is always faulted; a
change of two summed bytes that cancels is not. -/
def Obligations.ChecksumFaultsSingleByteChanges : Prop :=
  ∀ (f : List Byte) (n : Nat), 2 ≤ n → n ≤ f.length → FrameOk f n →
    (∀ i b, i < n → b ≠ byteAt f i → ¬ FrameOk (f.set i b) n) ∧
    (∀ i j d, i < n - 1 → j < n - 1 → i ≠ j →
      FrameOk ((f.set i (byteAt f i + d)).set j (byteAt f j - d)) n)

/-! ### SETADDR and XFER -/

/-- R180, SETADDR: ADDR and nothing else; the frame in TXBUF, the last result and the link stay as they are. -/
def Obligations.SetaddrChangesOnlyAddr : Prop :=
  ∀ (v8 : Byte) (s : State),
    Fields.ofWord (encode (.setaddr v8)) = ⟨0x6#4, 0#4, 0#8, v8, 0#8, 0#32⟩ ∧
    encode (.setaddr v8) &&& 0xFFFF00FFFFFFFFFF#64 = 0x6000000000000000#64 ∧
    (s.fsm = .idle →
      let t : State := { s with addr := v8, ack := some .accepted }
      exec (.setaddr v8) s = .next t ∧ t.status = s.status)

/-- R150, XFER: refused with nothing changed when there is no frame or the length is not legal, else the call starts;
STATUS then reads 0x01. -/
def Obligations.XferStartsCallOrIsRefused : Prop :=
  ∀ (len : BitVec 4) (s : State),
    Fields.ofWord (encode (.xfer len)) = ⟨0x5#4, len, 0#8, 0#8, 0#8, 0#32⟩ ∧
    encode (.xfer len) &&& 0xF0FFFFFFFFFFFFFF#64 = 0x5000000000000000#64 ∧
    (s.fsm = .idle →
      ((s.txlen = 0#4 ∨ len.toNat < s.cfg.minRxLen ∨ s.cfg.maxFrame < len.toNat) →
        exec (.xfer len) s = .next { s with ack := some .badReq }) ∧
      (s.txlen ≠ 0#4 → s.cfg.minRxLen ≤ len.toNat → len.toNat ≤ s.cfg.maxFrame →
        let t : State := { s with
          rxlen := len
          att := 0#4
          res := .none
          rvalid := false
          fsm := .send
          ack := some .accepted }
        exec (.xfer len) s = .next t ∧ t.status = 0x01#8))

/-! ### The decoding operations -/

/-- R140: the three cases common to the DEC operations; what is delivered is a function of RXBUF alone. -/
def Obligations.DecodingIsGated : Prop :=
  ∀ p ∈ [(Instr.decStatus, 3), (.decI16, 4), (.decI32, 6), (.decPos64, 8)],
    ∃ value : List Byte → BitVec 64, ∀ (s : State),
      (s.fsm = .idle → s.res ≠ .ok →
        exec p.1 s = .next { s with rdata := 0#64, rvalid := false, ack := some .accepted }) ∧
      (s.fsm = .idle → s.res = .ok → s.rxlen.toNat < p.2 →
        exec p.1 s = .next { s with ack := some .badReq }) ∧
      (s.fsm = .idle → s.res = .ok → p.2 ≤ s.rxlen.toNat → s.BuffersWf →
        exec p.1 s = .next { s with rdata := value s.rxbuf, rvalid := true, ack := some .accepted })

/-- R141, DEC_STATUS: the unsigned byte RXBUF[1]; in a state that meets the invariant the length never refuses it. -/
def Obligations.DecStatusDeliversByteOne : Prop :=
  encode .decStatus = 0x8000000000000000#64 ∧
  ∀ (s : State), s.Inv → s.fsm = .idle → s.res = .ok →
    exec .decStatus s = .next { s with
      rdata := (byteAt s.rxbuf 1).zeroExtend 64
      rvalid := true
      ack := some .accepted }

/-- 42_decode.md section 2 (R142), DEC_I16: RXBUF[1..2], big-endian, signed. That signed is two's complement is log 12. -/
def Obligations.DecI16DeliversSigned16 : Prop :=
  encode .decI16 = 0x9000000000000000#64 ∧
  ∀ (s : State), s.BuffersWf → s.fsm = .idle → s.res = .ok →
    (s.rxlen.toNat < 4 → exec .decI16 s = .next { s with ack := some .badReq }) ∧
    (4 ≤ s.rxlen.toNat →
      let u : Nat := (byteAt s.rxbuf 1).toNat * 256 + (byteAt s.rxbuf 2).toNat
      ∃ v : BitVec 64,
        exec .decI16 s = .next { s with rdata := v, rvalid := true, ack := some .accepted } ∧
        v.toInt = (if u < 32768 then (u : Int) else (u : Int) - 65536))

/-- 42_decode.md section 2 (R143), DEC_I32: RXBUF[1..4], big-endian, signed. That signed is two's complement is log 12. -/
def Obligations.DecI32DeliversSigned32 : Prop :=
  encode .decI32 = 0xA000000000000000#64 ∧
  ∀ (s : State), s.BuffersWf → s.fsm = .idle → s.res = .ok →
    (s.rxlen.toNat < 6 → exec .decI32 s = .next { s with ack := some .badReq }) ∧
    (6 ≤ s.rxlen.toNat →
      let u : Nat := (byteAt s.rxbuf 1).toNat * 2 ^ 24 + (byteAt s.rxbuf 2).toNat * 2 ^ 16 +
        (byteAt s.rxbuf 3).toNat * 2 ^ 8 + (byteAt s.rxbuf 4).toNat
      ∃ v : BitVec 64,
        exec .decI32 s = .next { s with rdata := v, rvalid := true, ack := some .accepted } ∧
        v.toInt = (if u < 2147483648 then (u : Int) else (u : Int) - 4294967296))

/-- 42_decode.md section 2 (R144), DEC_POS64: signed carrier times 65536 plus unsigned sub-position; the same as the
sign-extended 48 bits, so never out of range. That signed is two's complement is log 12. -/
def Obligations.DecPos64DeliversPosition : Prop :=
  encode .decPos64 = 0xB000000000000000#64 ∧
  ∀ (s : State), s.BuffersWf → s.fsm = .idle → s.res = .ok →
    (s.rxlen.toNat < 8 → exec .decPos64 s = .next { s with ack := some .badReq }) ∧
    (8 ≤ s.rxlen.toNat →
      let cu : Nat := (byteAt s.rxbuf 1).toNat * 2 ^ 24 + (byteAt s.rxbuf 2).toNat * 2 ^ 16 +
        (byteAt s.rxbuf 3).toNat * 2 ^ 8 + (byteAt s.rxbuf 4).toNat
      let carrier : Int := if cu < 2147483648 then (cu : Int) else (cu : Int) - 4294967296
      let sub : Nat := (byteAt s.rxbuf 5).toNat * 256 + (byteAt s.rxbuf 6).toNat
      ∃ v : BitVec 64,
        exec .decPos64 s = .next { s with rdata := v, rvalid := true, ack := some .accepted } ∧
        v.toInt = carrier * 65536 + (sub : Int) ∧
        -140737488355328 ≤ v.toInt ∧ v.toInt ≤ 140737488355327 ∧
        v = (byteAt s.rxbuf 1 ++ byteAt s.rxbuf 2 ++ byteAt s.rxbuf 3 ++ byteAt s.rxbuf 4 ++
          byteAt s.rxbuf 5 ++ byteAt s.rxbuf 6).signExtend 64)

/-- 20_memory.md section 2 (R64): of one long enough frame, the narrower decodings deliver the most significant part of
what the wider ones do, and all four are accepted. That negative values divide so rests on two's complement, log 12. -/
def Obligations.NarrowDecodingReadsMostSignificant : Prop :=
  ∀ (s : State), s.BuffersWf → s.fsm = .idle → s.res = .ok → 8 ≤ s.rxlen.toNat →
    ∃ t8 t16 t32 t64,
      exec .decStatus s = .next t8 ∧ exec .decI16 s = .next t16 ∧
      exec .decI32 s = .next t32 ∧ exec .decPos64 s = .next t64 ∧
      t32.rdata.toInt = t64.rdata.toInt / 65536 ∧ t16.rdata.toInt = t32.rdata.toInt / 65536 ∧
      t8.rdata.toInt = t16.rdata.toInt / 256 % 256 ∧
      ∀ t ∈ [t8, t16, t32, t64], t.ack = some .accepted ∧ t.rvalid = true

/-- 42_decode.md section 3 (R146): a frame built for a value in range decodes to that value. That the
device and the block represent negative values in two's complement is log 12. -/
def Obligations.DecodingInvertsTheDevice : Prop :=
  ∀ (s : State) (a : Byte) (x : Int), s.BuffersWf → s.fsm = .idle → s.res = .ok →
    (-32768 ≤ x → x < 32768 → s.rxlen = 4#4 → s.rxbuf.take 4 = frameI16 a x →
      exec .decI16 s = .next { s with rdata := BitVec.ofInt 64 x, rvalid := true, ack := some .accepted }) ∧
    (-2147483648 ≤ x → x < 2147483648 → s.rxlen = 6#4 → s.rxbuf.take 6 = frameI32 a x →
      exec .decI32 s = .next { s with rdata := BitVec.ofInt 64 x, rvalid := true, ack := some .accepted }) ∧
    (-140737488355328 ≤ x → x < 140737488355328 → s.rxlen = 8#4 → s.rxbuf.take 8 = framePos64 a x →
      exec .decPos64 s = .next { s with rdata := BitVec.ofInt 64 x, rvalid := true, ack := some .accepted })

/-- 20_memory.md section 4 and 44_system.md section 2 (R72, R185 (e)): after any host operation but XFER, an accepted
decoding delivers what it would have delivered before it. -/
def Obligations.ResultsStayUntilXfer : Prop :=
  ∀ i ∈ [Instr.decStatus, .decI16, .decI32, .decPos64], ∀ (j : Instr) (s t u : State),
    j.mnemonic ≠ "XFER" → s.BuffersWf → s.fsm = .idle →
    exec i s = .next t → t.ack = some .accepted → exec j s = .next u →
    ∃ v, exec i u = .next v ∧ v.rdata = t.rdata ∧ v.rvalid = t.rvalid ∧ v.ack = some .accepted

/-! ### Descriptors -/

/-- 30_encoding.md Part B: the worked descriptors, which R103 itself marks as derived from R98. -/
def Obligations.WorkedDescriptorsDecode : Prop :=
  decode 0x103D000000000000#64 = .ok (.encS 0x3D#8) ∧
  decode 0x30A400000000011E#64 = .ok (.encP16 0xA4#8 286#16) ∧
  decode 0x5300000000000000#64 = .ok (.xfer 3#4) ∧
  decode 0x5800000000000000#64 = .ok (.xfer 8#4) ∧
  decode 0x6000E10000000000#64 = .ok (.setaddr 0xE1#8) ∧
  decode 0x8000000000000000#64 = .ok .decStatus ∧
  decode 0xB000000000000000#64 = .ok .decPos64 ∧
  decode 0xD000E00000000000#64 = .ok (.csumAdd 0xE0#8) ∧
  decode 0x40FD860000000C80#64 = .ok (.encP8P32 0xFD#8 0x86#8 3200#32)

/-- 30_encoding.md Part B (R101): a word is decoded to an operation of a row's name exactly when the row's mask and match
select it; no word is selected by two rows; a decoded word is the encoding of what it decodes to, which the spec marks as
derived. -/
def Obligations.DecodeAgreesWithMatchAndMask : Prop :=
  (∀ r ∈ opcodeTable, ∀ w : Desc, r.Selects w ↔ ∃ i, decode w = .ok i ∧ i.mnemonic = r.mnemonic) ∧
  (∀ r₁ ∈ opcodeTable, ∀ r₂ ∈ opcodeTable, ∀ w : Desc, r₁.Selects w → r₂.Selects w → r₁ = r₂) ∧
  (∀ (w : Desc) (i : Instr), decode w = .ok i → encode i = w)

/-- 30_encoding.md Part B (R98, R101): decode and encode agree on every operation with every operand. -/
def Obligations.DecodeOfEncode : Prop := ∀ i : Instr, decode (encode i) = .ok i

/-- 30_encoding.md Part C (R109): a word with a reserved OP, with RSV not zero, or with any other bit set that no row
allows, is answered with BADREQ and changes nothing. That the very next step takes the oldest waiting word is the model's
choice, log 2, and the queue it leaves is log 3. -/
def Obligations.ReservedWordsAreRefused : Prop :=
  ∀ (s : State) (w : Desc) (later : List Desc), s.fsm = .idle → s.requests = w :: later →
    ((Fields.ofWord w).op ∈ [0x0#4, 0x7#4, 0xE#4, 0xF#4] ∨ (Fields.ofWord w).rsv ≠ 0#8 ∨
      (∀ r ∈ opcodeTable, ¬ r.Selects w)) →
    step s = .next { s with requests := later, ack := some .badReq }

/-- 30_encoding.md Part C (R110): a request taken in IDLE is answered with BADREQ for exactly four reasons, and then
nothing else changes; a request waiting during a call is not refused and not transferred. That State.ack keeps the last
acknowledge until the next one, and is none after reset, is log 6; that in IDLE the very next step takes the oldest waiting
request is log 2, and the queue is log 3. -/
def Obligations.BadReqHasExactlyFourReasons : Prop :=
  ∀ (s t : State), s.Inv → step s = .next t →
    (∀ (w : Desc) (later : List Desc), s.fsm = .idle → s.requests = w :: later →
      (t.ack = some .badReq ↔
        (∀ r ∈ opcodeTable, ¬ r.Selects w) ∨
        (∃ len, w = encode (.xfer len) ∧ (len.toNat < s.cfg.minRxLen ∨ s.cfg.maxFrame < len.toNat)) ∨
        (∃ len, w = encode (.xfer len) ∧ s.txlen = 0#4) ∨
        (s.res = .ok ∧ (w = encode .decI16 ∧ s.rxlen.toNat < 4 ∨ w = encode .decI32 ∧ s.rxlen.toNat < 6 ∨
          w = encode .decPos64 ∧ s.rxlen.toNat < 8))) ∧
      (t.ack = some .badReq → t = { s with requests := later, ack := some .badReq })) ∧
    (s.fsm ≠ .idle → s.requests <+: t.requests ∧ (t.ack = s.ack ∨ t.ack = none))

/-! ### The request channel and the step -/

/-- 10_state.md section 6 (R40) and U14: during a call no operation does anything, and a step leaves every waiting
request where it is. That waiting is a next state is the model's reading, log 7. -/
def Obligations.RequestsWaitDuringCall : Prop :=
  ∀ (s : State), s.fsm ≠ .idle →
    (∀ i, exec i s = .next s) ∧ (∀ t, step s = .next t → s.requests <+: t.requests)

/-- A step runs the decoded request: in IDLE the oldest waiting request leaves the queue and its operation is carried
out; the word placed by `withFetchWord` is that request. R40 says that the request can be transferred then; that the very
next step does it is the model's choice, log 2, and the queue with `withFetchWord` is log 3. -/
def Obligations.StepRunsDecodedRequest : Prop :=
  (∀ (s : State) (w : Desc) (later : List Desc) (i : Instr),
    s.fsm = .idle → s.requests = w :: later → decode w = .ok i →
    step s = exec i { s with requests := later }) ∧
  (∀ (s : State) (nbits w : Nat) (i : Instr),
    s.fsm = .idle → decodeTableWord nbits w = some i → step (s.withFetchWord nbits w) = exec i s)

/-- R222 and R151: with no request waiting, IDLE is left alone by ticks and engine turns. That an engine turn with no step
enabled is a step of the model is log 1. -/
def Obligations.IdleBlockTakesNoStep : Prop :=
  ∀ (s : State) (m : Move) (moves : List Move), s.fsm = .idle → s.requests = [] → s.agenda = m :: moves →
    (m = .tick ∨ ∃ a, m = .engine a) → step s = .next { s with agenda := moves }

/-- 43_transport.md section 3 (R164): LINK-RX may append any byte during a call, and in IDLE with no request waiting, as
soon as it is the environment's move. In IDLE with requests waiting it appends after those that the host then transfers,
which leave RXQ alone: the model's order of moves, log 2. -/
def Obligations.LinkAppendsAnyByte : Prop :=
  ∀ (s : State) (b : Byte) (moves : List Move), s.agenda = .append b :: moves →
    ((s.fsm ≠ .idle ∨ s.requests = []) → step s = .next { s with agenda := moves, rxq := s.rxq ++ [b] }) ∧
    (s.fsm = .idle → s.BuffersWf →
      ∃ n t, n ≤ s.requests.length ∧ stepsFrom n s = some t ∧ t.requests = s.requests.drop n ∧
        step t = .next { t with agenda := moves, rxq := s.rxq ++ [b] })

/-- R34 with the codes of R29 and R30, and R42: the bits of STATUS, and what the other read ports show, in every state,
during a call too. -/
def Obligations.ReadPortsShowTheState : Prop :=
  ∀ (s : State),
    (s.status.getLsbD 0 = true ↔ s.fsm ≠ .idle) ∧
    s.status.extractLsb' 1 2 =
      (match s.res with | .none => 0#2 | .ok => 1#2 | .errTimeout => 2#2 | .errWrite => 3#2) ∧
    (s.status.getLsbD 3 = true ↔ s.fsm = .accum) ∧
    s.status.extractLsb' 4 4 = s.att ∧
    s.ports.status = s.status ∧ s.ports.rdata = s.rdata ∧ (s.ports.rvalid = 1#1 ↔ s.rvalid = true) ∧
    (s.ports.ready = 1#1 ↔ s.fsm = .idle) ∧ s.ports.acc = s.acc

/-! ### The engine -/

/-- R152 with R153 and R154: SEND counts the attempt, flushes, clears, writes; on `ok` it starts to receive with the
timer at 0, on `err k` any number of bytes went out and the attempt has failed. -/
def Obligations.SendFlushesAndWrites : Prop :=
  ∀ (s : State) (a : WriteAnswer) (moves : List Move), s.Inv → s.fsm = .send → s.agenda = .engine a :: moves →
    let frame := s.txbuf.take s.txlen.toNat
    let u : State := { s with agenda := moves, att := s.att + 1#4, rxq := [], rxcnt := 0#4, acc := 0#8 }
    (a = .ok → step s = .next { u with txs := s.txs ++ frame, timer := 0#16, fsm := .sync }) ∧
    (∀ k, a = .err k → s.att.toNat + 1 < s.cfg.maxAttempts →
      step s = .next { u with txs := s.txs ++ frame.take k }) ∧
    (∀ k, a = .err k → s.att.toNat + 1 = s.cfg.maxAttempts →
      step s = .next { u with txs := s.txs ++ frame.take k, res := .errWrite, fsm := .idle })

/-- R154: an attempt failure clears what was accepted, and either leads to another attempt or ends the call with the
cause recorded; nothing else changes, RXBUF's bytes included. -/
def Obligations.AttemptFailureRetriesOrEnds : Prop :=
  ∀ (s : State),
    (s.att.toNat < s.cfg.maxAttempts → ∀ c, attemptFail c s = { s with rxcnt := 0#4, acc := 0#8, fsm := .send }) ∧
    (s.cfg.maxAttempts ≤ s.att.toNat →
      attemptFail .timeout s = { s with rxcnt := 0#4, acc := 0#8, res := .errTimeout, fsm := .idle } ∧
      attemptFail .write s = { s with rxcnt := 0#4, acc := 0#8, res := .errWrite, fsm := .idle })

/-- R155: what the engine does with the oldest byte of RXQ; comparing ACC with the trailer is the frame check. -/
def Obligations.RxByteFiltersAndCollects : Prop :=
  ∀ (s : State) (a : WriteAnswer) (moves : List Move) (b : Byte) (queued : List Byte),
    s.Inv → (s.fsm = .sync ∨ s.fsm = .accum) → s.agenda = .engine a :: moves → s.rxq = b :: queued →
    let stored := s.rxbuf.set s.rxcnt.toNat b
    let u : State := { s with agenda := moves, rxq := queued }
    (s.rxcnt = 0#4 → b ≠ s.addr → step s = .next u) ∧
    (s.rxcnt ≠ 0#4 ∨ b = s.addr →
      (s.rxcnt.toNat + 1 < s.rxlen.toNat →
        step s = .next { u with
          rxbuf := stored
          timer := 0#16
          acc := s.acc + b
          rxcnt := s.rxcnt + 1#4
          fsm := .accum }) ∧
      (s.rxcnt.toNat + 1 = s.rxlen.toNat → FrameOk stored s.rxlen.toNat →
        step s = .next { u with
          rxbuf := stored
          timer := 0#16
          rxcnt := s.rxlen
          res := .ok
          fsm := .idle }) ∧
      (s.rxcnt.toNat + 1 = s.rxlen.toNat → ¬ FrameOk stored s.rxlen.toNat →
        step s = .next { u with
          rxbuf := stored
          timer := 0#16
          rxcnt := 0#4
          acc := 0#8
          fsm := .sync }))

/-- R158: a TICK with RXQ empty counts while receiving, and the attempt fails when the count exceeds the timeout; in
IDLE and SEND it changes nothing. -/
def Obligations.TickCountsAndTimesOut : Prop :=
  ∀ (s : State) (moves : List Move), s.Inv → s.agenda = .tick :: moves → (s.fsm ≠ .idle ∨ s.requests = []) →
    let u : State := { s with agenda := moves }
    (s.fsm = .idle ∨ s.fsm = .send → step s = .next u) ∧
    (s.fsm = .sync ∨ s.fsm = .accum → s.rxq = [] →
      (s.timer.toNat + 1 ≤ s.cfg.timeoutTicks → step s = .next { u with timer := s.timer + 1#16 }) ∧
      (s.cfg.timeoutTicks < s.timer.toNat + 1 → s.att.toNat < s.cfg.maxAttempts →
        step s = .next { u with timer := s.timer + 1#16, rxcnt := 0#4, acc := 0#8, fsm := .send }) ∧
      (s.cfg.timeoutTicks < s.timer.toNat + 1 → s.att.toNat = s.cfg.maxAttempts →
        step s = .next { u with
          timer := s.timer + 1#16
          rxcnt := 0#4
          acc := 0#8
          res := .errTimeout
          fsm := .idle }))

/-- R159: while receiving with bytes queued, a TICK is held: as many steps as there are bytes, at most, empty RXQ or end
the call, and the TICK is still to come. That the TICK is held is the strict order of log 16. -/
def Obligations.BytesBeforeTime : Prop :=
  ∀ (s : State) (moves : List Move), s.Inv → (s.fsm = .sync ∨ s.fsm = .accum) → s.agenda = .tick :: moves →
    ∃ n t, n ≤ s.rxq.length ∧ stepsFrom n s = some t ∧ t.agenda = s.agenda ∧ t.rxq = s.rxq.drop n ∧
      (t.rxq = [] ∨ t.fsm = .idle) ∧ (t.timer = s.timer ∨ t.timer = 0#16)

/-- 20_memory.md section 5 (R74): what SEND does does not depend on what RXQ held before it. -/
def Obligations.SendIsABarrier : Prop :=
  ∀ (s : State) (a : WriteAnswer) (moves : List Move) (queued : List Byte),
    s.fsm = .send → s.agenda = .engine a :: moves → step { s with rxq := queued } = step s

/-- 43_transport.md section 4 (R165): apart from hardware reset, every way FSM changes in one step. That a timeout finds
RXQ empty is R159 of section 2, in the strict order of log 16. -/
def Obligations.FsmChangesOnlyByTheTable : Prop :=
  ∀ (s t : State), s.Inv → step s = .next t → t.fsm ≠ s.fsm →
    (∀ queued, s.nextMove = .reset queued → s.fsm = .idle ∧ s.requests ≠ []) →
    (s.fsm = .idle ∧ t.fsm = .send ∧ t.att = 0#4 ∧ t.res = .none ∧ s.txlen ≠ 0#4 ∧
      ∃ len later, s.requests = encode (.xfer len) :: later ∧ s.cfg.minRxLen ≤ len.toNat ∧
        len.toNat ≤ s.cfg.maxFrame) ∨
    (s.fsm = .send ∧ t.fsm = .sync ∧ s.nextMove = .engine .ok ∧ t.att.toNat = s.att.toNat + 1 ∧ t.rxq = [] ∧
      t.timer = 0#16) ∨
    (s.fsm = .send ∧ t.fsm = .idle ∧ (∃ k, s.nextMove = .engine (.err k)) ∧
      s.att.toNat + 1 = s.cfg.maxAttempts ∧ t.att.toNat = s.att.toNat + 1 ∧ t.rxq = [] ∧ t.res = .errWrite) ∨
    (s.fsm = .sync ∧ t.fsm = .accum ∧ s.rxq = s.addr :: t.rxq ∧ t.rxcnt = 1#4 ∧ t.timer = 0#16) ∨
    (s.fsm = .accum ∧ t.fsm = .idle ∧ s.rxq = s.acc :: t.rxq ∧ s.rxcnt.toNat + 1 = s.rxlen.toNat ∧ t.res = .ok) ∨
    (s.fsm = .accum ∧ t.fsm = .sync ∧ (∃ b, b ≠ s.acc ∧ s.rxq = b :: t.rxq) ∧
      s.rxcnt.toNat + 1 = s.rxlen.toNat ∧ t.rxcnt = 0#4) ∨
    (s.receiving = true ∧ t.fsm = .send ∧ s.nextMove = .tick ∧ s.rxq = [] ∧
      s.cfg.timeoutTicks < s.timer.toNat + 1 ∧ s.att.toNat < s.cfg.maxAttempts ∧ t.rxcnt = 0#4) ∨
    (s.receiving = true ∧ t.fsm = .idle ∧ s.nextMove = .tick ∧ s.rxq = [] ∧
      s.cfg.timeoutTicks < s.timer.toNat + 1 ∧ s.att.toNat = s.cfg.maxAttempts ∧ t.res = .errTimeout)

/-- 43_transport.md section 3 (R161, R162) and R198: what stands when a call has ended, other than by reset. -/
def Obligations.EndOfCallIsSuccessOrFailure : Prop :=
  ∀ (s t : State), s.Inv → step s = .next t → s.fsm ≠ .idle → t.fsm = .idle →
    (∀ queued, s.nextMove ≠ .reset queued) →
    t.ready = true ∧ t.rvalid = false ∧ t.rdata = s.rdata ∧ t.addr = s.addr ∧ t.txbuf = s.txbuf ∧
    ((t.res = .ok ∧ t.rxcnt = t.rxlen ∧ byteAt t.rxbuf 0 = t.addr ∧ FrameOk t.rxbuf t.rxlen.toNat ∧
        t.acc = byteAt t.rxbuf (t.rxlen.toNat - 1) ∧ t.timer = 0#16 ∧ 1 ≤ t.att.toNat ∧
        t.att.toNat ≤ t.cfg.maxAttempts ∧ t.rxq = s.rxq.tail) ∨
      (t.rxcnt = 0#4 ∧ t.acc = 0#8 ∧ t.att.toNat = t.cfg.maxAttempts ∧
        (t.res = .errTimeout ∧ t.timer.toNat = t.cfg.timeoutTicks + 1 ∧ t.status = t.att ++ 0x4#4 ∨
          t.res = .errWrite ∧ t.timer = s.timer ∧ t.status = t.att ++ 0x6#4)))

/-! ### Whole-machine rules -/

/-- 10_state.md section 4 (R38, R26, R28, R31): every step keeps the invariant. -/
def Obligations.StepKeepsInvariant : Prop := ∀ (s t : State), s.Inv → step s = .next t → t.Inv

/-- 10_state.md sections 4 and 7: the invariant holds after reset, for all legal parameters and any content of RXQ. -/
def Obligations.InvariantHoldsAfterReset : Prop :=
  State.reset.Inv ∧ ∀ (p : Params) (queued : List Byte), p.Legal → (State.initial p queued).Inv

/-- 10_state.md R25 and 43_transport.md R150: outside SEND, RXCNT never exceeds RXLEN; in no state does it pass the buffer's
capacity, so it never wraps (R39); and in SEND no engine step depends on RXCNT. R25 and R39 state the bound without exception; R20, R46 and R150 let no XFER write RXCNT, so after an XFER with a
shorter length the bound fails until the SEND step, unseen by any step (log 10). -/
def Obligations.RxcntWithinRxlenOutsideSend : Prop :=
  (∀ (s t : State), s.Inv → (s.fsm ≠ .send → s.rxcnt.toNat ≤ s.rxlen.toNat) → step s = .next t →
    (t.fsm ≠ .send → t.rxcnt.toNat ≤ t.rxlen.toNat)) ∧
  (∀ (s t : State), s.Inv → s.rxcnt.toNat ≤ s.cfg.maxFrame → step s = .next t →
    t.rxcnt.toNat ≤ t.cfg.maxFrame) ∧
  (∀ (s : State) (a : WriteAnswer) (moves : List Move) (count : BitVec 4),
    s.fsm = .send → s.agenda = .engine a :: moves → step { s with rxcnt := count } = step s)

/-- 60_exceptions.md section 1 (R191: the block has no failure that stops it): from a state that meets the invariant
every step has a next state, and from no state at all is a step a refusal of the model. That BADREQ, which R196 advises a
model to treat as a refusal, is a next state is the model's choice, log 6. -/
def Obligations.MachineNeverStops : Prop :=
  (∀ (s : State), s.Inv → ∃ t, step s = .next t) ∧ ∀ (s : State) (r : Refusal), step s ≠ .refused r

/-- 44_system.md section 2 (R185 (d)) and R38: ADDR changes only by SETADDR, in IDLE, or by reset. -/
def Obligations.AddrChangesOnlyBySetaddr : Prop :=
  ∀ (s t : State), step s = .next t → t.addr ≠ s.addr →
    (s.fsm = .idle ∧ ∃ later, s.requests = encode (.setaddr t.addr) :: later) ∨
    (∃ queued, s.nextMove = .reset queued ∧ t.addr = s.cfg.addrReset)

/-- 10_state.md section 3 (R36): without reset TXS only grows, and only by a SEND step, by at most the frame in TXBUF;
and no step reads it. -/
def Obligations.SentBytesOnlyGrowAndAreNotRead : Prop :=
  ∀ (s t : State), step s = .next t → (∀ queued, s.nextMove ≠ .reset queued) →
    (∃ sent, t.txs = s.txs ++ sent ∧ sent <+: s.txFrame ∧ (sent ≠ [] → s.fsm = .send)) ∧
    (∀ earlier, step { s with txs := earlier ++ s.txs } = .next { t with txs := earlier ++ t.txs })

/-- 10_state.md section 8 (R46), its writes: what a host operation and what an engine turn or a tick leaves unchanged. -/
def Obligations.AccessMatrix : Prop :=
  (∀ (i : Instr) (s t : State), exec i s = .next t →
    (i.mnemonic ∉ ["ENC_S", "ENC_P8", "ENC_P16", "ENC_P8P32"] → t.txbuf = s.txbuf ∧ t.txlen = s.txlen) ∧
    (i.mnemonic ∉ ["ENC_S", "ENC_P8", "ENC_P16", "ENC_P8P32", "CSUM_CLR", "CSUM_ADD"] → t.acc = s.acc) ∧
    (i.mnemonic ∉ ["DEC_STATUS", "DEC_I16", "DEC_I32", "DEC_POS64"] → t.rdata = s.rdata) ∧
    (i.mnemonic ∉ ["DEC_STATUS", "DEC_I16", "DEC_I32", "DEC_POS64", "XFER"] → t.rvalid = s.rvalid) ∧
    (i.mnemonic ≠ "SETADDR" → t.addr = s.addr) ∧
    (i.mnemonic ≠ "XFER" → t.rxlen = s.rxlen ∧ t.att = s.att ∧ t.fsm = s.fsm ∧ t.res = s.res) ∧
    t.rxbuf = s.rxbuf ∧ t.rxcnt = s.rxcnt ∧ t.timer = s.timer ∧ t.rxq = s.rxq ∧ t.txs = s.txs ∧
    t.requests = s.requests ∧ t.agenda = s.agenda ∧ t.drawn = s.drawn ∧ t.cfg = s.cfg) ∧
  (∀ (a : WriteAnswer) (s t : State), sendStep a s = .next t →
    t.addr = s.addr ∧ t.txbuf = s.txbuf ∧ t.txlen = s.txlen ∧ t.rxbuf = s.rxbuf ∧ t.rxlen = s.rxlen ∧
    t.rdata = s.rdata ∧ t.rvalid = s.rvalid ∧ t.ack = s.ack ∧ t.requests = s.requests ∧ t.agenda = s.agenda ∧
    t.drawn = s.drawn ∧ t.cfg = s.cfg) ∧
  (∀ (s t : State), rxByteStep s = .next t →
    t.addr = s.addr ∧ t.txbuf = s.txbuf ∧ t.txlen = s.txlen ∧ t.rxlen = s.rxlen ∧ t.att = s.att ∧
    t.rdata = s.rdata ∧ t.rvalid = s.rvalid ∧ t.txs = s.txs ∧ t.ack = s.ack ∧ t.requests = s.requests ∧
    t.agenda = s.agenda ∧ t.drawn = s.drawn ∧ t.cfg = s.cfg) ∧
  (∀ (s : State),
    let t := tickStep s
    t.addr = s.addr ∧ t.txbuf = s.txbuf ∧ t.txlen = s.txlen ∧ t.rxbuf = s.rxbuf ∧ t.rxlen = s.rxlen ∧
    t.att = s.att ∧ t.rdata = s.rdata ∧ t.rvalid = s.rvalid ∧ t.rxq = s.rxq ∧ t.txs = s.txs ∧ t.ack = s.ack ∧
    t.requests = s.requests ∧ t.agenda = s.agenda ∧ t.drawn = s.drawn ∧ t.cfg = s.cfg)

/-! ### Whole calls -/

/-- 43_transport.md sections 3 and 4 (R163, R168 (b)), whatever the environment does short of reset: noise, partial and
mismatched frames, silence, write errors. ATT counts the SEND steps; a call that goes on, or succeeds, has had fewer
than P_MAX_ATTEMPTS failed attempts; when that many have failed the call has ended with an error after exactly that many
SEND steps, and only then does it end so. Which ticks fail an attempt follows R159 as log 16 does. -/
def Obligations.CallFailsExactlyWhenAllAttemptsFail : Prop :=
  ∀ (s t : State) (n : Nat), s.Inv → s.fsm = .send → s.att = 0#4 → staysInCall n s = true →
    stepsFrom n s = some t →
    t.att.toNat = countSteps State.sends n s ∧ t.att.toNat ≤ s.cfg.maxAttempts ∧
    (t.fsm ≠ .idle ∨ t.res = .ok → countSteps State.failsAttempt n s < s.cfg.maxAttempts) ∧
    (t.fsm = .idle → t.res ≠ .ok →
      (t.res = .errTimeout ∨ t.res = .errWrite) ∧ countSteps State.failsAttempt n s = s.cfg.maxAttempts ∧
      countSteps State.sends n s = s.cfg.maxAttempts)

/-- 43_transport.md sections 3 and 4 (R163, and of R168 (b) the attempts that meet a write error or silence): if each
attempt of a call is one of these, the call makes exactly P_MAX_ATTEMPTS sends, each of the whole frame as far as it got
out, and then fails with the last attempt's cause. -/
def Obligations.WriteErrorsAndSilenceEndTheCall : Prop :=
  ∀ (s : State) (attempts : List (Option Nat)) (last : Option Nat) (moves : List Move),
    s.Inv → s.fsm = .send → s.att = 0#4 → attempts.length + 1 = s.cfg.maxAttempts →
    s.agenda = (attempts ++ [last]).flatMap (failingAttempt s.cfg) ++ moves →
    ∃ t, stepsFrom ((attempts ++ [last]).flatMap (failingAttempt s.cfg)).length s = some t ∧
      t.fsm = .idle ∧ t.res = (if last.isSome then .errWrite else .errTimeout) ∧
      t.att.toNat = s.cfg.maxAttempts ∧ t.rxcnt = 0#4 ∧ t.acc = 0#8 ∧ t.rvalid = false ∧
      t.txs = s.txs ++ (attempts ++ [last]).flatMap (attemptEmits s.txFrame) ∧ t.rxq = [] ∧
      t.txbuf = s.txbuf ∧ t.rdata = s.rdata ∧ t.agenda = moves ∧ t.requests = s.requests

/-- 43_transport.md section 4 (R167): on a silent link whose writes succeed, the call lasts exactly P_MAX_ATTEMPTS *
(P_TIMEOUT_TICKS + 1) ticks of receive phase; one move before that it is still running. -/
def Obligations.SilentCallLastsExactly : Prop :=
  ∀ (s : State) (moves : List Move), s.Inv → s.fsm = .send → s.att = 0#4 →
    s.agenda = (List.replicate s.cfg.maxAttempts none).flatMap (failingAttempt s.cfg) ++ moves →
    (∀ n < s.cfg.maxAttempts * (s.cfg.timeoutTicks + 2), ∃ u, stepsFrom n s = some u ∧ u.fsm ≠ .idle) ∧
    (∃ t, stepsFrom (s.cfg.maxAttempts * (s.cfg.timeoutTicks + 2)) s = some t ∧ t.fsm = .idle ∧
      t.res = .errTimeout ∧ t.agenda = moves ∧
      t.txs = s.txs ++ (List.replicate s.cfg.maxAttempts s.txFrame).flatten)

/-- 43_transport.md section 4 (R168 (a)): after a SEND, noise without ADDR and then a valid frame, with gaps the timer
allows, end the call with that frame. -/
def Obligations.NoiseThenFrameSucceeds : Prop :=
  ∀ (s : State) (noise frame : List (Nat × Byte)) (moves : List Move),
    s.Inv → s.fsm = .sync → s.rxq = [] → s.timer = 0#16 →
    (∀ x ∈ noise, x.2 ≠ s.addr) → frame.length = s.rxlen.toNat →
    byteAt (frame.map Prod.snd) 0 = s.addr → FrameOk (frame.map Prod.snd) s.rxlen.toNat →
    (noise.map Prod.fst).sum + (frame.map Prod.fst).headD 0 ≤ s.cfg.timeoutTicks →
    (∀ x ∈ frame.tail, x.1 ≤ s.cfg.timeoutTicks) →
    s.agenda = arrivals (noise ++ frame) ++ moves →
    ∃ t, stepsFrom (arrivals (noise ++ frame)).length s = some t ∧
      t.fsm = .idle ∧ t.res = .ok ∧ t.rxbuf.take s.rxlen.toNat = frame.map Prod.snd ∧ t.rxlen = s.rxlen ∧
      t.att = s.att ∧ t.txs = s.txs ∧ t.agenda = moves

/-- 70_reset_and_hazards.md section 2 (R235) and R166: a stream of address bytes keeps a call with an expected length of
at most 8 running for ever. -/
def Obligations.AddressStreamNeverEndsCall : Prop :=
  ∀ (s : State) (n : Nat) (gap : Nat) (moves : List Move),
    s.Inv → s.fsm = .sync → s.rxq = [] → s.timer = 0#16 → s.addr = 0xE0#8 → s.rxlen.toNat ≤ 8 →
    gap ≤ s.cfg.timeoutTicks →
    s.agenda = arrivals (List.replicate n (gap, 0xE0#8)) ++ moves →
    ∃ t, stepsFrom (arrivals (List.replicate n (gap, 0xE0#8))).length s = some t ∧
      (t.fsm = .sync ∨ t.fsm = .accum) ∧ t.att = s.att ∧ t.agenda = moves

/-- 30_encoding.md Part D (R113): a typed call whose device answers at once with a valid frame of the call's format
delivers the device's value, whatever stale bytes were queued before (42_decode.md sections 1 to 3, 43_transport.md
sections 1 to 3). That a status-only request reads values and every other call answers 3 bytes is the spec's D24 (log 20);
that each request is transferred as soon as READY = 1 is log 2, the queue of requests log 3; negative values are in two's complement, log 12. -/
def Obligations.TypedCallDeliversTheAnswer : Prop :=
  ∀ (s : State) (c : TypedCall) (answer : List Byte) (x : Int) (later : List Desc) (moves : List Move),
    s.Inv → s.cfg.minRxLen = 3 → s.fsm = .idle → s.requests = c.requests ++ later →
    ((∃ (cmd v8 : Byte) (v16 : BitVec 16) (v32 : BitVec 32) (status : Byte),
        (c = .callS cmd ∨ c = .callS8 cmd v8 ∨ c = .callS16 cmd v16 ∨ c = .callS8x32 cmd v8 v32) ∧
        answer = frameStatus s.addr status ∧ x = status.toNat) ∨
      (∃ cmd, c = .callI16 cmd ∧ answer = frameI16 s.addr x ∧ -32768 ≤ x ∧ x < 32768) ∨
      (∃ cmd, c = .callI32 cmd ∧ answer = frameI32 s.addr x ∧ -2147483648 ≤ x ∧ x < 2147483648) ∨
      (∃ cmd, c = .callPos cmd ∧ answer = framePos64 s.addr x ∧ -140737488355328 ≤ x ∧ x < 140737488355328)) →
    s.agenda = .engine .ok :: arrivals (answer.map fun b => (0, b)) ++ moves →
    ∃ t, stepsFrom (2 + 1 + 2 * answer.length + 1) s = some t ∧ t.fsm = .idle ∧ t.res = .ok ∧
      t.rvalid = true ∧ t.rdata.toInt = x ∧ t.att = 1#4 ∧ t.requests = later ∧ t.agenda = moves
end

