-- ==== Sys2Proof/Laws/Decode.lean ====
section
/-! SUPPORT. The descriptor's fields and the word they make: two views of the same 64 bits (R98). -/

namespace Sys2Proof

/-- The fields read from a word made of fields are those fields. -/
theorem Fields.ofWord_toWord (f : Fields) : Fields.ofWord f.toWord = f := by
  obtain ⟨op, len, cmd, v8, rsv, v32⟩ := f
  simp only [Fields.ofWord, Fields.toWord, Fields.mk.injEq]
  refine ⟨?_, ?_, ?_, ?_, ?_, ?_⟩ <;>
    (ext k hk; simp only [BitVec.getElem_extractLsb', BitVec.getLsbD_append]; grind)

/-- The word made of a word's fields is that word. -/
theorem Fields.toWord_ofWord (w : Desc) : (Fields.ofWord w).toWord = w := by
  apply BitVec.eq_of_getLsbD_eq
  intro k hk
  simp only [Fields.ofWord, Fields.toWord, BitVec.getLsbD_append, BitVec.getLsbD_extractLsb']
  grind

/-- Masking a word is masking its fields. -/
theorem Fields.toWord_and (f g : Fields) :
    f.toWord &&& g.toWord =
      Fields.toWord ⟨f.op &&& g.op, f.len &&& g.len, f.cmd &&& g.cmd, f.v8 &&& g.v8, f.rsv &&& g.rsv,
        f.v32 &&& g.v32⟩ := by
  apply BitVec.eq_of_getLsbD_eq
  intro k hk
  simp only [Fields.toWord, BitVec.getLsbD_and, BitVec.getLsbD_append]
  grind

end Sys2Proof
end

