-- ==== Sys2Proof/Laws/State.lean ====
section
/-! SUPPORT. What each named update of State does to each field, so that no later proof unfolds a record update. -/

namespace Sys2Proof.Machine

/-! ### accClear -/

@[simp] theorem State.accClear_addr (s : State) : s.accClear.addr = s.addr := rfl
@[simp] theorem State.accClear_txbuf (s : State) : s.accClear.txbuf = s.txbuf := rfl
@[simp] theorem State.accClear_txlen (s : State) : s.accClear.txlen = s.txlen := rfl
@[simp] theorem State.accClear_rxbuf (s : State) : s.accClear.rxbuf = s.rxbuf := rfl
@[simp] theorem State.accClear_rxcnt (s : State) : s.accClear.rxcnt = s.rxcnt := rfl
@[simp] theorem State.accClear_rxlen (s : State) : s.accClear.rxlen = s.rxlen := rfl
@[simp] theorem State.accClear_acc (s : State) : s.accClear.acc = 0#8 := rfl
@[simp] theorem State.accClear_timer (s : State) : s.accClear.timer = s.timer := rfl
@[simp] theorem State.accClear_att (s : State) : s.accClear.att = s.att := rfl
@[simp] theorem State.accClear_fsm (s : State) : s.accClear.fsm = s.fsm := rfl
@[simp] theorem State.accClear_res (s : State) : s.accClear.res = s.res := rfl
@[simp] theorem State.accClear_rdata (s : State) : s.accClear.rdata = s.rdata := rfl
@[simp] theorem State.accClear_rvalid (s : State) : s.accClear.rvalid = s.rvalid := rfl
@[simp] theorem State.accClear_rxq (s : State) : s.accClear.rxq = s.rxq := rfl
@[simp] theorem State.accClear_txs (s : State) : s.accClear.txs = s.txs := rfl
@[simp] theorem State.accClear_ack (s : State) : s.accClear.ack = s.ack := rfl
@[simp] theorem State.accClear_requests (s : State) : s.accClear.requests = s.requests := rfl
@[simp] theorem State.accClear_agenda (s : State) : s.accClear.agenda = s.agenda := rfl
@[simp] theorem State.accClear_drawn (s : State) : s.accClear.drawn = s.drawn := rfl
@[simp] theorem State.accClear_cfg (s : State) : s.accClear.cfg = s.cfg := rfl

/-! ### accAdd -/

@[simp] theorem State.accAdd_addr (s : State) (b : Byte) : (s.accAdd b).addr = s.addr := rfl
@[simp] theorem State.accAdd_txbuf (s : State) (b : Byte) : (s.accAdd b).txbuf = s.txbuf := rfl
@[simp] theorem State.accAdd_txlen (s : State) (b : Byte) : (s.accAdd b).txlen = s.txlen := rfl
@[simp] theorem State.accAdd_rxbuf (s : State) (b : Byte) : (s.accAdd b).rxbuf = s.rxbuf := rfl
@[simp] theorem State.accAdd_rxcnt (s : State) (b : Byte) : (s.accAdd b).rxcnt = s.rxcnt := rfl
@[simp] theorem State.accAdd_rxlen (s : State) (b : Byte) : (s.accAdd b).rxlen = s.rxlen := rfl
@[simp] theorem State.accAdd_acc (s : State) (b : Byte) : (s.accAdd b).acc = s.acc + b := rfl
@[simp] theorem State.accAdd_timer (s : State) (b : Byte) : (s.accAdd b).timer = s.timer := rfl
@[simp] theorem State.accAdd_att (s : State) (b : Byte) : (s.accAdd b).att = s.att := rfl
@[simp] theorem State.accAdd_fsm (s : State) (b : Byte) : (s.accAdd b).fsm = s.fsm := rfl
@[simp] theorem State.accAdd_res (s : State) (b : Byte) : (s.accAdd b).res = s.res := rfl
@[simp] theorem State.accAdd_rdata (s : State) (b : Byte) : (s.accAdd b).rdata = s.rdata := rfl
@[simp] theorem State.accAdd_rvalid (s : State) (b : Byte) : (s.accAdd b).rvalid = s.rvalid := rfl
@[simp] theorem State.accAdd_rxq (s : State) (b : Byte) : (s.accAdd b).rxq = s.rxq := rfl
@[simp] theorem State.accAdd_txs (s : State) (b : Byte) : (s.accAdd b).txs = s.txs := rfl
@[simp] theorem State.accAdd_ack (s : State) (b : Byte) : (s.accAdd b).ack = s.ack := rfl
@[simp] theorem State.accAdd_requests (s : State) (b : Byte) : (s.accAdd b).requests = s.requests := rfl
@[simp] theorem State.accAdd_agenda (s : State) (b : Byte) : (s.accAdd b).agenda = s.agenda := rfl
@[simp] theorem State.accAdd_drawn (s : State) (b : Byte) : (s.accAdd b).drawn = s.drawn := rfl
@[simp] theorem State.accAdd_cfg (s : State) (b : Byte) : (s.accAdd b).cfg = s.cfg := rfl

/-! ### rxFlush -/

@[simp] theorem State.rxFlush_addr (s : State) : s.rxFlush.addr = s.addr := rfl
@[simp] theorem State.rxFlush_txbuf (s : State) : s.rxFlush.txbuf = s.txbuf := rfl
@[simp] theorem State.rxFlush_txlen (s : State) : s.rxFlush.txlen = s.txlen := rfl
@[simp] theorem State.rxFlush_rxbuf (s : State) : s.rxFlush.rxbuf = s.rxbuf := rfl
@[simp] theorem State.rxFlush_rxcnt (s : State) : s.rxFlush.rxcnt = s.rxcnt := rfl
@[simp] theorem State.rxFlush_rxlen (s : State) : s.rxFlush.rxlen = s.rxlen := rfl
@[simp] theorem State.rxFlush_acc (s : State) : s.rxFlush.acc = s.acc := rfl
@[simp] theorem State.rxFlush_timer (s : State) : s.rxFlush.timer = s.timer := rfl
@[simp] theorem State.rxFlush_att (s : State) : s.rxFlush.att = s.att := rfl
@[simp] theorem State.rxFlush_fsm (s : State) : s.rxFlush.fsm = s.fsm := rfl
@[simp] theorem State.rxFlush_res (s : State) : s.rxFlush.res = s.res := rfl
@[simp] theorem State.rxFlush_rdata (s : State) : s.rxFlush.rdata = s.rdata := rfl
@[simp] theorem State.rxFlush_rvalid (s : State) : s.rxFlush.rvalid = s.rvalid := rfl
@[simp] theorem State.rxFlush_rxq (s : State) : s.rxFlush.rxq = [] := rfl
@[simp] theorem State.rxFlush_txs (s : State) : s.rxFlush.txs = s.txs := rfl
@[simp] theorem State.rxFlush_ack (s : State) : s.rxFlush.ack = s.ack := rfl
@[simp] theorem State.rxFlush_requests (s : State) : s.rxFlush.requests = s.requests := rfl
@[simp] theorem State.rxFlush_agenda (s : State) : s.rxFlush.agenda = s.agenda := rfl
@[simp] theorem State.rxFlush_drawn (s : State) : s.rxFlush.drawn = s.drawn := rfl
@[simp] theorem State.rxFlush_cfg (s : State) : s.rxFlush.cfg = s.cfg := rfl

/-! ### rxAppend -/

@[simp] theorem State.rxAppend_addr (s : State) (b : Byte) : (s.rxAppend b).addr = s.addr := rfl
@[simp] theorem State.rxAppend_txbuf (s : State) (b : Byte) : (s.rxAppend b).txbuf = s.txbuf := rfl
@[simp] theorem State.rxAppend_txlen (s : State) (b : Byte) : (s.rxAppend b).txlen = s.txlen := rfl
@[simp] theorem State.rxAppend_rxbuf (s : State) (b : Byte) : (s.rxAppend b).rxbuf = s.rxbuf := rfl
@[simp] theorem State.rxAppend_rxcnt (s : State) (b : Byte) : (s.rxAppend b).rxcnt = s.rxcnt := rfl
@[simp] theorem State.rxAppend_rxlen (s : State) (b : Byte) : (s.rxAppend b).rxlen = s.rxlen := rfl
@[simp] theorem State.rxAppend_acc (s : State) (b : Byte) : (s.rxAppend b).acc = s.acc := rfl
@[simp] theorem State.rxAppend_timer (s : State) (b : Byte) : (s.rxAppend b).timer = s.timer := rfl
@[simp] theorem State.rxAppend_att (s : State) (b : Byte) : (s.rxAppend b).att = s.att := rfl
@[simp] theorem State.rxAppend_fsm (s : State) (b : Byte) : (s.rxAppend b).fsm = s.fsm := rfl
@[simp] theorem State.rxAppend_res (s : State) (b : Byte) : (s.rxAppend b).res = s.res := rfl
@[simp] theorem State.rxAppend_rdata (s : State) (b : Byte) : (s.rxAppend b).rdata = s.rdata := rfl
@[simp] theorem State.rxAppend_rvalid (s : State) (b : Byte) : (s.rxAppend b).rvalid = s.rvalid := rfl
@[simp] theorem State.rxAppend_rxq (s : State) (b : Byte) : (s.rxAppend b).rxq = s.rxq ++ [b] := rfl
@[simp] theorem State.rxAppend_txs (s : State) (b : Byte) : (s.rxAppend b).txs = s.txs := rfl
@[simp] theorem State.rxAppend_ack (s : State) (b : Byte) : (s.rxAppend b).ack = s.ack := rfl
@[simp] theorem State.rxAppend_requests (s : State) (b : Byte) : (s.rxAppend b).requests = s.requests := rfl
@[simp] theorem State.rxAppend_agenda (s : State) (b : Byte) : (s.rxAppend b).agenda = s.agenda := rfl
@[simp] theorem State.rxAppend_drawn (s : State) (b : Byte) : (s.rxAppend b).drawn = s.drawn := rfl
@[simp] theorem State.rxAppend_cfg (s : State) (b : Byte) : (s.rxAppend b).cfg = s.cfg := rfl

/-! ### acknowledge -/

@[simp] theorem State.acknowledge_addr (s : State) (a : Ack) : (s.acknowledge a).addr = s.addr := rfl
@[simp] theorem State.acknowledge_txbuf (s : State) (a : Ack) : (s.acknowledge a).txbuf = s.txbuf := rfl
@[simp] theorem State.acknowledge_txlen (s : State) (a : Ack) : (s.acknowledge a).txlen = s.txlen := rfl
@[simp] theorem State.acknowledge_rxbuf (s : State) (a : Ack) : (s.acknowledge a).rxbuf = s.rxbuf := rfl
@[simp] theorem State.acknowledge_rxcnt (s : State) (a : Ack) : (s.acknowledge a).rxcnt = s.rxcnt := rfl
@[simp] theorem State.acknowledge_rxlen (s : State) (a : Ack) : (s.acknowledge a).rxlen = s.rxlen := rfl
@[simp] theorem State.acknowledge_acc (s : State) (a : Ack) : (s.acknowledge a).acc = s.acc := rfl
@[simp] theorem State.acknowledge_timer (s : State) (a : Ack) : (s.acknowledge a).timer = s.timer := rfl
@[simp] theorem State.acknowledge_att (s : State) (a : Ack) : (s.acknowledge a).att = s.att := rfl
@[simp] theorem State.acknowledge_fsm (s : State) (a : Ack) : (s.acknowledge a).fsm = s.fsm := rfl
@[simp] theorem State.acknowledge_res (s : State) (a : Ack) : (s.acknowledge a).res = s.res := rfl
@[simp] theorem State.acknowledge_rdata (s : State) (a : Ack) : (s.acknowledge a).rdata = s.rdata := rfl
@[simp] theorem State.acknowledge_rvalid (s : State) (a : Ack) : (s.acknowledge a).rvalid = s.rvalid := rfl
@[simp] theorem State.acknowledge_rxq (s : State) (a : Ack) : (s.acknowledge a).rxq = s.rxq := rfl
@[simp] theorem State.acknowledge_txs (s : State) (a : Ack) : (s.acknowledge a).txs = s.txs := rfl
@[simp] theorem State.acknowledge_ack (s : State) (a : Ack) : (s.acknowledge a).ack = some a := rfl
@[simp] theorem State.acknowledge_requests (s : State) (a : Ack) : (s.acknowledge a).requests = s.requests := rfl
@[simp] theorem State.acknowledge_agenda (s : State) (a : Ack) : (s.acknowledge a).agenda = s.agenda := rfl
@[simp] theorem State.acknowledge_drawn (s : State) (a : Ack) : (s.acknowledge a).drawn = s.drawn := rfl
@[simp] theorem State.acknowledge_cfg (s : State) (a : Ack) : (s.acknowledge a).cfg = s.cfg := rfl

/-! ### clearReceive -/

@[simp] theorem State.clearReceive_addr (s : State) : s.clearReceive.addr = s.addr := rfl
@[simp] theorem State.clearReceive_txbuf (s : State) : s.clearReceive.txbuf = s.txbuf := rfl
@[simp] theorem State.clearReceive_txlen (s : State) : s.clearReceive.txlen = s.txlen := rfl
@[simp] theorem State.clearReceive_rxbuf (s : State) : s.clearReceive.rxbuf = s.rxbuf := rfl
@[simp] theorem State.clearReceive_rxcnt (s : State) : s.clearReceive.rxcnt = 0#4 := rfl
@[simp] theorem State.clearReceive_rxlen (s : State) : s.clearReceive.rxlen = s.rxlen := rfl
@[simp] theorem State.clearReceive_acc (s : State) : s.clearReceive.acc = 0#8 := rfl
@[simp] theorem State.clearReceive_timer (s : State) : s.clearReceive.timer = s.timer := rfl
@[simp] theorem State.clearReceive_att (s : State) : s.clearReceive.att = s.att := rfl
@[simp] theorem State.clearReceive_fsm (s : State) : s.clearReceive.fsm = s.fsm := rfl
@[simp] theorem State.clearReceive_res (s : State) : s.clearReceive.res = s.res := rfl
@[simp] theorem State.clearReceive_rdata (s : State) : s.clearReceive.rdata = s.rdata := rfl
@[simp] theorem State.clearReceive_rvalid (s : State) : s.clearReceive.rvalid = s.rvalid := rfl
@[simp] theorem State.clearReceive_rxq (s : State) : s.clearReceive.rxq = s.rxq := rfl
@[simp] theorem State.clearReceive_txs (s : State) : s.clearReceive.txs = s.txs := rfl
@[simp] theorem State.clearReceive_ack (s : State) : s.clearReceive.ack = s.ack := rfl
@[simp] theorem State.clearReceive_requests (s : State) : s.clearReceive.requests = s.requests := rfl
@[simp] theorem State.clearReceive_agenda (s : State) : s.clearReceive.agenda = s.agenda := rfl
@[simp] theorem State.clearReceive_drawn (s : State) : s.clearReceive.drawn = s.drawn := rfl
@[simp] theorem State.clearReceive_cfg (s : State) : s.clearReceive.cfg = s.cfg := rfl

/-! ### deliver -/

@[simp] theorem State.deliver_addr (s : State) (v : BitVec 64) (valid : Bool) : (s.deliver v valid).addr = s.addr := rfl
@[simp] theorem State.deliver_txbuf (s : State) (v : BitVec 64) (valid : Bool) : (s.deliver v valid).txbuf = s.txbuf := rfl
@[simp] theorem State.deliver_txlen (s : State) (v : BitVec 64) (valid : Bool) : (s.deliver v valid).txlen = s.txlen := rfl
@[simp] theorem State.deliver_rxbuf (s : State) (v : BitVec 64) (valid : Bool) : (s.deliver v valid).rxbuf = s.rxbuf := rfl
@[simp] theorem State.deliver_rxcnt (s : State) (v : BitVec 64) (valid : Bool) : (s.deliver v valid).rxcnt = s.rxcnt := rfl
@[simp] theorem State.deliver_rxlen (s : State) (v : BitVec 64) (valid : Bool) : (s.deliver v valid).rxlen = s.rxlen := rfl
@[simp] theorem State.deliver_acc (s : State) (v : BitVec 64) (valid : Bool) : (s.deliver v valid).acc = s.acc := rfl
@[simp] theorem State.deliver_timer (s : State) (v : BitVec 64) (valid : Bool) : (s.deliver v valid).timer = s.timer := rfl
@[simp] theorem State.deliver_att (s : State) (v : BitVec 64) (valid : Bool) : (s.deliver v valid).att = s.att := rfl
@[simp] theorem State.deliver_fsm (s : State) (v : BitVec 64) (valid : Bool) : (s.deliver v valid).fsm = s.fsm := rfl
@[simp] theorem State.deliver_res (s : State) (v : BitVec 64) (valid : Bool) : (s.deliver v valid).res = s.res := rfl
@[simp] theorem State.deliver_rdata (s : State) (v : BitVec 64) (valid : Bool) : (s.deliver v valid).rdata = v := rfl
@[simp] theorem State.deliver_rvalid (s : State) (v : BitVec 64) (valid : Bool) : (s.deliver v valid).rvalid = valid := rfl
@[simp] theorem State.deliver_rxq (s : State) (v : BitVec 64) (valid : Bool) : (s.deliver v valid).rxq = s.rxq := rfl
@[simp] theorem State.deliver_txs (s : State) (v : BitVec 64) (valid : Bool) : (s.deliver v valid).txs = s.txs := rfl
@[simp] theorem State.deliver_ack (s : State) (v : BitVec 64) (valid : Bool) : (s.deliver v valid).ack = some .accepted := rfl
@[simp] theorem State.deliver_requests (s : State) (v : BitVec 64) (valid : Bool) : (s.deliver v valid).requests = s.requests := rfl
@[simp] theorem State.deliver_agenda (s : State) (v : BitVec 64) (valid : Bool) : (s.deliver v valid).agenda = s.agenda := rfl
@[simp] theorem State.deliver_drawn (s : State) (v : BitVec 64) (valid : Bool) : (s.deliver v valid).drawn = s.drawn := rfl
@[simp] theorem State.deliver_cfg (s : State) (v : BitVec 64) (valid : Bool) : (s.deliver v valid).cfg = s.cfg := rfl

/-! ### presentFirst -/

@[simp] theorem presentFirst_addr (s : State) (w : Desc) : (presentFirst w s).addr = s.addr := rfl
@[simp] theorem presentFirst_txbuf (s : State) (w : Desc) : (presentFirst w s).txbuf = s.txbuf := rfl
@[simp] theorem presentFirst_txlen (s : State) (w : Desc) : (presentFirst w s).txlen = s.txlen := rfl
@[simp] theorem presentFirst_rxbuf (s : State) (w : Desc) : (presentFirst w s).rxbuf = s.rxbuf := rfl
@[simp] theorem presentFirst_rxcnt (s : State) (w : Desc) : (presentFirst w s).rxcnt = s.rxcnt := rfl
@[simp] theorem presentFirst_rxlen (s : State) (w : Desc) : (presentFirst w s).rxlen = s.rxlen := rfl
@[simp] theorem presentFirst_acc (s : State) (w : Desc) : (presentFirst w s).acc = s.acc := rfl
@[simp] theorem presentFirst_timer (s : State) (w : Desc) : (presentFirst w s).timer = s.timer := rfl
@[simp] theorem presentFirst_att (s : State) (w : Desc) : (presentFirst w s).att = s.att := rfl
@[simp] theorem presentFirst_fsm (s : State) (w : Desc) : (presentFirst w s).fsm = s.fsm := rfl
@[simp] theorem presentFirst_res (s : State) (w : Desc) : (presentFirst w s).res = s.res := rfl
@[simp] theorem presentFirst_rdata (s : State) (w : Desc) : (presentFirst w s).rdata = s.rdata := rfl
@[simp] theorem presentFirst_rvalid (s : State) (w : Desc) : (presentFirst w s).rvalid = s.rvalid := rfl
@[simp] theorem presentFirst_rxq (s : State) (w : Desc) : (presentFirst w s).rxq = s.rxq := rfl
@[simp] theorem presentFirst_txs (s : State) (w : Desc) : (presentFirst w s).txs = s.txs := rfl
@[simp] theorem presentFirst_ack (s : State) (w : Desc) : (presentFirst w s).ack = s.ack := rfl
@[simp] theorem presentFirst_requests (s : State) (w : Desc) : (presentFirst w s).requests = w :: s.requests := rfl
@[simp] theorem presentFirst_agenda (s : State) (w : Desc) : (presentFirst w s).agenda = s.agenda := rfl
@[simp] theorem presentFirst_drawn (s : State) (w : Desc) : (presentFirst w s).drawn = s.drawn := rfl
@[simp] theorem presentFirst_cfg (s : State) (w : Desc) : (presentFirst w s).cfg = s.cfg := rfl

/-! ### hardwareReset -/

@[simp] theorem hardwareReset_addr (s : State) (queued : List Byte) : (hardwareReset queued s).addr = s.cfg.addrReset := rfl
@[simp] theorem hardwareReset_txbuf (s : State) (queued : List Byte) : (hardwareReset queued s).txbuf = List.replicate s.cfg.maxFrame 0#8 := rfl
@[simp] theorem hardwareReset_txlen (s : State) (queued : List Byte) : (hardwareReset queued s).txlen = 0#4 := rfl
@[simp] theorem hardwareReset_rxbuf (s : State) (queued : List Byte) : (hardwareReset queued s).rxbuf = List.replicate s.cfg.maxFrame 0#8 := rfl
@[simp] theorem hardwareReset_rxcnt (s : State) (queued : List Byte) : (hardwareReset queued s).rxcnt = 0#4 := rfl
@[simp] theorem hardwareReset_rxlen (s : State) (queued : List Byte) : (hardwareReset queued s).rxlen = 0#4 := rfl
@[simp] theorem hardwareReset_acc (s : State) (queued : List Byte) : (hardwareReset queued s).acc = 0#8 := rfl
@[simp] theorem hardwareReset_timer (s : State) (queued : List Byte) : (hardwareReset queued s).timer = 0#16 := rfl
@[simp] theorem hardwareReset_att (s : State) (queued : List Byte) : (hardwareReset queued s).att = 0#4 := rfl
@[simp] theorem hardwareReset_fsm (s : State) (queued : List Byte) : (hardwareReset queued s).fsm = .idle := rfl
@[simp] theorem hardwareReset_res (s : State) (queued : List Byte) : (hardwareReset queued s).res = .none := rfl
@[simp] theorem hardwareReset_rdata (s : State) (queued : List Byte) : (hardwareReset queued s).rdata = 0#64 := rfl
@[simp] theorem hardwareReset_rvalid (s : State) (queued : List Byte) : (hardwareReset queued s).rvalid = false := rfl
@[simp] theorem hardwareReset_rxq (s : State) (queued : List Byte) : (hardwareReset queued s).rxq = queued := rfl
@[simp] theorem hardwareReset_txs (s : State) (queued : List Byte) : (hardwareReset queued s).txs = [] := rfl
@[simp] theorem hardwareReset_ack (s : State) (queued : List Byte) : (hardwareReset queued s).ack = none := rfl
@[simp] theorem hardwareReset_requests (s : State) (queued : List Byte) : (hardwareReset queued s).requests = s.requests := rfl
@[simp] theorem hardwareReset_agenda (s : State) (queued : List Byte) : (hardwareReset queued s).agenda = s.agenda := rfl
@[simp] theorem hardwareReset_drawn (s : State) (queued : List Byte) : (hardwareReset queued s).drawn = s.drawn := rfl
@[simp] theorem hardwareReset_cfg (s : State) (queued : List Byte) : (hardwareReset queued s).cfg = s.cfg := rfl

/-! ### txWrite -/

@[simp] theorem State.txWrite_addr (s : State) (frame : List Byte) (a : Config.WriteAnswer) : (s.txWrite frame a).addr = s.addr := by cases a <;> rfl
@[simp] theorem State.txWrite_txbuf (s : State) (frame : List Byte) (a : Config.WriteAnswer) : (s.txWrite frame a).txbuf = s.txbuf := by cases a <;> rfl
@[simp] theorem State.txWrite_txlen (s : State) (frame : List Byte) (a : Config.WriteAnswer) : (s.txWrite frame a).txlen = s.txlen := by cases a <;> rfl
@[simp] theorem State.txWrite_rxbuf (s : State) (frame : List Byte) (a : Config.WriteAnswer) : (s.txWrite frame a).rxbuf = s.rxbuf := by cases a <;> rfl
@[simp] theorem State.txWrite_rxcnt (s : State) (frame : List Byte) (a : Config.WriteAnswer) : (s.txWrite frame a).rxcnt = s.rxcnt := by cases a <;> rfl
@[simp] theorem State.txWrite_rxlen (s : State) (frame : List Byte) (a : Config.WriteAnswer) : (s.txWrite frame a).rxlen = s.rxlen := by cases a <;> rfl
@[simp] theorem State.txWrite_acc (s : State) (frame : List Byte) (a : Config.WriteAnswer) : (s.txWrite frame a).acc = s.acc := by cases a <;> rfl
@[simp] theorem State.txWrite_timer (s : State) (frame : List Byte) (a : Config.WriteAnswer) : (s.txWrite frame a).timer = s.timer := by cases a <;> rfl
@[simp] theorem State.txWrite_att (s : State) (frame : List Byte) (a : Config.WriteAnswer) : (s.txWrite frame a).att = s.att := by cases a <;> rfl
@[simp] theorem State.txWrite_fsm (s : State) (frame : List Byte) (a : Config.WriteAnswer) : (s.txWrite frame a).fsm = s.fsm := by cases a <;> rfl
@[simp] theorem State.txWrite_res (s : State) (frame : List Byte) (a : Config.WriteAnswer) : (s.txWrite frame a).res = s.res := by cases a <;> rfl
@[simp] theorem State.txWrite_rdata (s : State) (frame : List Byte) (a : Config.WriteAnswer) : (s.txWrite frame a).rdata = s.rdata := by cases a <;> rfl
@[simp] theorem State.txWrite_rvalid (s : State) (frame : List Byte) (a : Config.WriteAnswer) : (s.txWrite frame a).rvalid = s.rvalid := by cases a <;> rfl
@[simp] theorem State.txWrite_rxq (s : State) (frame : List Byte) (a : Config.WriteAnswer) : (s.txWrite frame a).rxq = s.rxq := by cases a <;> rfl
@[simp] theorem State.txWrite_ack (s : State) (frame : List Byte) (a : Config.WriteAnswer) : (s.txWrite frame a).ack = s.ack := by cases a <;> rfl
@[simp] theorem State.txWrite_requests (s : State) (frame : List Byte) (a : Config.WriteAnswer) : (s.txWrite frame a).requests = s.requests := by cases a <;> rfl
@[simp] theorem State.txWrite_agenda (s : State) (frame : List Byte) (a : Config.WriteAnswer) : (s.txWrite frame a).agenda = s.agenda := by cases a <;> rfl
@[simp] theorem State.txWrite_drawn (s : State) (frame : List Byte) (a : Config.WriteAnswer) : (s.txWrite frame a).drawn = s.drawn := by cases a <;> rfl
@[simp] theorem State.txWrite_cfg (s : State) (frame : List Byte) (a : Config.WriteAnswer) : (s.txWrite frame a).cfg = s.cfg := by cases a <;> rfl

/-! ### dropMove -/

@[simp] theorem State.dropMove_addr (s : State) : s.dropMove.addr = s.addr := by unfold State.dropMove; split <;> rfl
@[simp] theorem State.dropMove_txbuf (s : State) : s.dropMove.txbuf = s.txbuf := by unfold State.dropMove; split <;> rfl
@[simp] theorem State.dropMove_txlen (s : State) : s.dropMove.txlen = s.txlen := by unfold State.dropMove; split <;> rfl
@[simp] theorem State.dropMove_rxbuf (s : State) : s.dropMove.rxbuf = s.rxbuf := by unfold State.dropMove; split <;> rfl
@[simp] theorem State.dropMove_rxcnt (s : State) : s.dropMove.rxcnt = s.rxcnt := by unfold State.dropMove; split <;> rfl
@[simp] theorem State.dropMove_rxlen (s : State) : s.dropMove.rxlen = s.rxlen := by unfold State.dropMove; split <;> rfl
@[simp] theorem State.dropMove_acc (s : State) : s.dropMove.acc = s.acc := by unfold State.dropMove; split <;> rfl
@[simp] theorem State.dropMove_timer (s : State) : s.dropMove.timer = s.timer := by unfold State.dropMove; split <;> rfl
@[simp] theorem State.dropMove_att (s : State) : s.dropMove.att = s.att := by unfold State.dropMove; split <;> rfl
@[simp] theorem State.dropMove_fsm (s : State) : s.dropMove.fsm = s.fsm := by unfold State.dropMove; split <;> rfl
@[simp] theorem State.dropMove_res (s : State) : s.dropMove.res = s.res := by unfold State.dropMove; split <;> rfl
@[simp] theorem State.dropMove_rdata (s : State) : s.dropMove.rdata = s.rdata := by unfold State.dropMove; split <;> rfl
@[simp] theorem State.dropMove_rvalid (s : State) : s.dropMove.rvalid = s.rvalid := by unfold State.dropMove; split <;> rfl
@[simp] theorem State.dropMove_rxq (s : State) : s.dropMove.rxq = s.rxq := by unfold State.dropMove; split <;> rfl
@[simp] theorem State.dropMove_txs (s : State) : s.dropMove.txs = s.txs := by unfold State.dropMove; split <;> rfl
@[simp] theorem State.dropMove_ack (s : State) : s.dropMove.ack = s.ack := by unfold State.dropMove; split <;> rfl
@[simp] theorem State.dropMove_requests (s : State) : s.dropMove.requests = s.requests := by unfold State.dropMove; split <;> rfl
@[simp] theorem State.dropMove_cfg (s : State) : s.dropMove.cfg = s.cfg := by unfold State.dropMove; split <;> rfl

@[simp] theorem State.txWrite_ok_txs (s : State) (frame : List Byte) :
    (s.txWrite frame .ok).txs = s.txs ++ frame := rfl
@[simp] theorem State.txWrite_err_txs (s : State) (frame : List Byte) (k : Nat) :
    (s.txWrite frame (.err k)).txs = s.txs ++ frame.take k := rfl
theorem State.dropMove_cons_agenda (s : State) (m : Config.Move) (rest : List Config.Move) (h : s.agenda = m :: rest) :
    s.dropMove = { s with agenda := rest } := by unfold State.dropMove; rw [h]
theorem State.dropMove_nil_agenda (s : State) (h : s.agenda = []) :
    s.dropMove = { s with drawn := s.drawn + 1 } := by unfold State.dropMove; rw [h]
theorem State.nextMove_cons_agenda (s : State) (m : Config.Move) (rest : List Config.Move) (h : s.agenda = m :: rest) :
    s.nextMove = m := by unfold State.nextMove; rw [h]

end Sys2Proof.Machine
end

