-- ==== Sys2Proof/Laws/Ops.lean ====
section
/-! SUPPORT. For each shared operation, everything it can do, said once. -/

namespace Sys2Proof.Machine

/-! ### Checksum and accumulator -/

@[simp] theorem checksum_zero (bytes : List Byte) : checksum bytes 0 = 0#8 := rfl

/-- One more byte adds to the sum (R121 (b)). -/
theorem checksum_succ (bytes : List Byte) (n : Nat) (h : n < bytes.length) :
    checksum bytes (n + 1) = checksum bytes n + byteAt bytes n := by
  have htake : bytes.take (n + 1) = bytes.take n ++ [bytes[n]] := by simp
  have hget : byteAt bytes n = bytes[n] := by simp [byteAt, h]
  unfold checksum
  rw [htake, hget, List.map_append, List.sum_append]
  simp [BitVec.ofNat_add]

/-- The sum looks only at the bytes it covers. -/
theorem checksum_congr (a b : List Byte) (n : Nat) (h : a.take n = b.take n) : checksum a n = checksum b n := by
  unfold checksum; rw [h]

theorem checksum_append_left (a b : List Byte) (n : Nat) (h : n ≤ a.length) :
    checksum (a ++ b) n = checksum a n :=
  checksum_congr _ _ _ (List.take_append_of_le_length h)

/-- Adding bytes one at a time, from any start. -/
theorem foldl_accAdd (bytes : List Byte) (s : State) :
    bytes.foldl (fun t b => t.accAdd b) s = { s with acc := bytes.foldl (· + ·) s.acc } := by
  induction bytes generalizing s with
  | nil => rfl
  | cons b rest ih => rw [List.foldl_cons, ih]; rfl

theorem foldl_add_eq_checksum (bytes : List Byte) (a : Byte) :
    bytes.foldl (· + ·) a = a + checksum bytes bytes.length := by
  induction bytes generalizing a with
  | nil => simp
  | cons b rest ih =>
    rw [List.foldl_cons, ih]
    simp [checksum, BitVec.ofNat_add, BitVec.add_assoc]

/-- Clear-then-add leaves the checksum in ACC and nothing else changed (R124). -/
theorem State.accSum_eq (s : State) (bytes : List Byte) :
    s.accSum bytes = { s with acc := checksum bytes bytes.length } := by
  unfold State.accSum
  rw [foldl_accAdd, foldl_add_eq_checksum]
  simp [State.accClear]

/-! ### Frame buffers -/

theorem putFrame_of_le (frame buffer : List Byte) (h : frame.length ≤ buffer.length) :
    putFrame frame buffer = some (frame ++ buffer.drop frame.length) := by simp [putFrame, h]

theorem putFrame_length (frame buffer out : List Byte) (h : putFrame frame buffer = some out) :
    out.length = buffer.length := by
  unfold putFrame at h
  split at h
  · cases h; simp; omega
  · cases h

theorem byteAt_set_same (f : List Byte) (i : Nat) (b : Byte) (h : i < f.length) : byteAt (f.set i b) i = b := by
  simp [byteAt, h]

theorem byteAt_set_ne (f : List Byte) (i j : Nat) (b : Byte) (h : i ≠ j) : byteAt (f.set i b) j = byteAt f j := by
  simp [byteAt, List.getElem?_set_ne h]

/-! ### Readiness -/

@[simp] theorem State.ready_iff (s : State) : s.ready = true ↔ s.fsm = .idle := by simp [State.ready]
@[simp] theorem State.receiving_iff (s : State) : s.receiving = true ↔ s.fsm = .sync ∨ s.fsm = .accum := by
  simp [State.receiving]
@[simp] theorem State.rxAvail_iff (s : State) : s.rxAvail = true ↔ s.rxq ≠ [] := by simp [State.rxAvail]

/-- A host operation in IDLE is carried out (R40). -/
theorem hostOp_idle (s : State) (k : State → Host.Outcome State Fault Refusal) (h : s.fsm = .idle) :
    hostOp s k = k s := by simp [hostOp, h]

/-- A host operation during a call waits (R40). -/
theorem hostOp_busy (s : State) (k : State → Host.Outcome State Fault Refusal) (h : s.fsm ≠ .idle) :
    hostOp s k = .next s := by simp [hostOp, h]

/-! ### Attempt failure -/

/-- Everything an attempt failure can do (R154). -/
theorem attemptFail_cases (cause : Cause) (s : State) :
    (s.att.toNat < s.cfg.maxAttempts ∧
      attemptFail cause s = { s with rxcnt := 0#4, acc := 0#8, fsm := .send }) ∨
    (s.cfg.maxAttempts ≤ s.att.toNat ∧
      attemptFail cause s = { s with rxcnt := 0#4, acc := 0#8, res := cause.res, fsm := .idle }) := by
  unfold attemptFail
  split
  · exact .inl ⟨‹_›, rfl⟩
  · exact .inr ⟨by omega, rfl⟩

/-! ### Encoding and decoding -/

/-- Everything an ENC operation can do once taken: the frame is its body and the body's checksum (R130). -/
theorem encodeFrame_cases (body : List Byte) (s : State) :
    (body.length + 1 ≤ s.txbuf.length ∧
      encodeFrame body s = .next { s with
        txbuf := body ++ [checksum body body.length] ++ s.txbuf.drop (body.length + 1),
        txlen := BitVec.ofNat 4 (body.length + 1),
        acc := checksum body body.length,
        ack := some .accepted }) ∨
    (s.txbuf.length < body.length + 1 ∧ encodeFrame body s = .fault .bufferIndex) := by
  unfold encodeFrame
  rw [State.accSum_eq]
  by_cases h : body.length + 1 ≤ s.txbuf.length
  · left
    refine ⟨h, ?_⟩
    simp [putFrame, h, State.acknowledge]
  · right
    refine ⟨by omega, ?_⟩
    simp [putFrame, h]

/-- Everything a DEC operation can do once taken (R140). -/
theorem decodeFrame_cases (need : Nat) (value : List Byte → BitVec 64) (s : State) :
    (s.res ≠ .ok ∧ decodeFrame need value s = .next (s.deliver 0#64 false)) ∨
    (s.res = .ok ∧ s.rxlen.toNat < need ∧ decodeFrame need value s = .next (badReq s)) ∨
    (s.res = .ok ∧ need ≤ s.rxlen.toNat ∧ s.rxbuf.length < need ∧
      decodeFrame need value s = .fault .bufferIndex) ∨
    (s.res = .ok ∧ need ≤ s.rxlen.toNat ∧ need ≤ s.rxbuf.length ∧
      decodeFrame need value s = .next (s.deliver (value s.rxbuf) true)) := by
  unfold decodeFrame
  split
  · exact .inl ⟨‹_›, rfl⟩
  · rename_i hres
    have hok : s.res = .ok := by simpa using hres
    split
    · exact .inr (.inl ⟨hok, ‹_›, rfl⟩)
    · split
      · exact .inr (.inr (.inl ⟨hok, by omega, ‹_›, rfl⟩))
      · exact .inr (.inr (.inr ⟨hok, by omega, by omega, rfl⟩))

/-! ### Transport -/

/-- Everything XFER can do once taken (R150). -/
theorem execXfer_cases (len : BitVec 4) (s : State) (h : s.fsm = .idle) :
    ((s.txlen = 0#4 ∨ len.toNat < s.cfg.minRxLen ∨ s.cfg.maxFrame < len.toNat) ∧
      execXfer len s = .next (badReq s)) ∨
    (s.txlen ≠ 0#4 ∧ s.cfg.minRxLen ≤ len.toNat ∧ len.toNat ≤ s.cfg.maxFrame ∧
      execXfer len s = .next { s with
        rxlen := len, att := 0#4, res := .none, rvalid := false, fsm := .send,
        ack := some .accepted }) := by
  unfold execXfer
  rw [hostOp_idle _ _ h]
  by_cases hbad : s.txlen = 0#4 ∨ lenLegal s.cfg len = false
  · refine .inl ⟨?_, by rw [if_pos hbad]⟩
    rcases hbad with h0 | hl
    · exact .inl h0
    · right; simp [lenLegal] at hl; omega
  · refine .inr ?_
    rw [if_neg hbad]
    simp [lenLegal] at hbad
    exact ⟨hbad.1, hbad.2.1, hbad.2.2, rfl⟩

/-- Everything SEND can do (R152). -/
theorem sendStep_cases (answer : Config.WriteAnswer) (s : State) :
    (s.txbuf.length < s.txlen.toNat ∧ sendStep answer s = .fault .bufferIndex) ∨
    (s.txlen.toNat ≤ s.txbuf.length ∧ answer = .ok ∧
      sendStep answer s = .next { s with
        att := s.att + 1#4, rxq := [], rxcnt := 0#4, acc := 0#8,
        txs := s.txs ++ s.txFrame, timer := 0#16, fsm := .sync }) ∨
    (s.txlen.toNat ≤ s.txbuf.length ∧ ∃ k, answer = .err k ∧
      sendStep answer s = .next (attemptFail .write { s with
        att := s.att + 1#4, rxq := [], rxcnt := 0#4,
        acc := 0#8, txs := s.txs ++ s.txFrame.take k })) := by
  unfold sendStep
  split
  · exact .inl ⟨‹_›, rfl⟩
  · cases answer with
    | ok => exact .inr (.inl ⟨by omega, rfl, rfl⟩)
    | err k => exact .inr (.inr ⟨by omega, k, rfl, rfl⟩)

/-- Everything an accepted byte can do (R155). -/
theorem acceptByte_cases (b : Byte) (s : State) :
    (s.rxbuf.length ≤ s.rxcnt.toNat ∧ acceptByte b s = .fault .bufferIndex) ∨
    (s.rxcnt.toNat < s.rxbuf.length ∧ s.rxcnt.toNat + 1 < s.rxlen.toNat ∧
      acceptByte b s = .next { s with
        rxbuf := s.rxbuf.set s.rxcnt.toNat b, timer := 0#16, acc := s.acc + b,
        rxcnt := s.rxcnt + 1#4, fsm := .accum }) ∨
    (s.rxcnt.toNat < s.rxbuf.length ∧ s.rxlen.toNat ≤ s.rxcnt.toNat + 1 ∧ s.acc = b ∧
      acceptByte b s = .next { s with
        rxbuf := s.rxbuf.set s.rxcnt.toNat b, timer := 0#16, rxcnt := s.rxlen,
        res := .ok, fsm := .idle }) ∨
    (s.rxcnt.toNat < s.rxbuf.length ∧ s.rxlen.toNat ≤ s.rxcnt.toNat + 1 ∧ s.acc ≠ b ∧
      acceptByte b s = .next { s with
        rxbuf := s.rxbuf.set s.rxcnt.toNat b, timer := 0#16, rxcnt := 0#4,
        acc := 0#8, fsm := .sync }) := by
  unfold acceptByte
  split
  · exact .inl ⟨‹_›, rfl⟩
  · dsimp only
    split
    · exact .inr (.inl ⟨by omega, ‹_›, rfl⟩)
    · split
      · exact .inr (.inr (.inl ⟨by omega, by omega, ‹_›, rfl⟩))
      · exact .inr (.inr (.inr ⟨by omega, by omega, ‹_›, rfl⟩))

/-- Everything RXBYTE can do (R155). -/
theorem rxByteStep_cases (s : State) :
    (s.rxq = [] ∧ rxByteStep s = .next s) ∨
    (∃ b rest, s.rxq = b :: rest ∧ s.rxcnt = 0#4 ∧ b ≠ s.addr ∧ rxByteStep s = .next { s with rxq := rest }) ∨
    (∃ b rest, s.rxq = b :: rest ∧ (s.rxcnt ≠ 0#4 ∨ b = s.addr) ∧
      rxByteStep s = acceptByte b { s with rxq := rest }) := by
  unfold rxByteStep State.rxPop
  cases hq : s.rxq with
  | nil => exact .inl ⟨rfl, rfl⟩
  | cons b rest =>
    by_cases hd : s.rxcnt = 0#4 ∧ b ≠ s.addr
    · exact .inr (.inl ⟨b, rest, rfl, hd.1, hd.2, by simp [hd.1, hd.2]⟩)
    · refine .inr (.inr ⟨b, rest, rfl, ?_, by simp [hd]⟩)
      by_cases hc : s.rxcnt = 0#4
      · right; by_contra hb; exact hd ⟨hc, hb⟩
      · exact .inl hc

/-- Everything TICK can do (R158). -/
theorem tickStep_cases (s : State) :
    (s.receiving = false ∧ tickStep s = s) ∨
    (s.receiving = true ∧ s.timer.toNat + 1 ≤ s.cfg.timeoutTicks ∧
      tickStep s = { s with timer := BitVec.ofNat 16 (s.timer.toNat + 1) }) ∨
    (s.receiving = true ∧ s.cfg.timeoutTicks < s.timer.toNat + 1 ∧
      tickStep s = attemptFail .timeout { s with timer := BitVec.ofNat 16 (s.timer.toNat + 1) }) := by
  unfold tickStep
  cases hr : s.receiving with
  | false => exact .inl ⟨rfl, rfl⟩
  | true =>
    by_cases ht : s.cfg.timeoutTicks < s.timer.toNat + 1
    · exact .inr (.inr ⟨rfl, ht, by simp [ht]⟩)
    · exact .inr (.inl ⟨rfl, by omega, by simp [ht]⟩)

/-! ### The request channel and the whole step -/

theorem fetchRequest_idle_cons (s : State) (w : Desc) (rest : List Desc) (hi : s.fsm = .idle)
    (hq : s.requests = w :: rest) : fetchRequest s = some (w, { s with requests := rest }) := by
  unfold fetchRequest; simp [hi, hq]

theorem fetchRequest_busy (s : State) (h : s.fsm ≠ .idle) : fetchRequest s = none := by
  unfold fetchRequest; simp [h]

theorem fetchRequest_nil (s : State) (h : s.requests = []) : fetchRequest s = none := by
  unfold fetchRequest; simp [h]

/-- Everything the environment can do in one move (R2, R151, R159). -/
theorem environmentStep_cases (s : State) :
    (∃ w, s.nextMove = .present w ∧ environmentStep s = .next { s.dropMove with requests := s.requests ++ [w] }) ∨
    (∃ b, s.nextMove = .append b ∧ environmentStep s = .next (s.dropMove.rxAppend b)) ∨
    (s.nextMove = .tick ∧ s.receiving = true ∧ s.rxq ≠ [] ∧ environmentStep s = rxByteStep s) ∨
    (s.nextMove = .tick ∧ (s.receiving = false ∨ s.rxq = []) ∧ environmentStep s = .next (tickStep s.dropMove)) ∨
    (∃ a, s.nextMove = .engine a ∧ environmentStep s = engineStep a s.dropMove) ∨
    (∃ q, s.nextMove = .reset q ∧ environmentStep s = .next (hardwareReset q s.dropMove)) := by
  unfold environmentStep
  cases s.nextMove with
  | present w => exact .inl ⟨w, rfl, rfl⟩
  | append b => exact .inr (.inl ⟨b, rfl, rfl⟩)
  | tick =>
    by_cases h : (s.receiving && s.rxAvail) = true
    · have h' := h
      rw [Bool.and_eq_true, State.rxAvail_iff] at h'
      exact .inr (.inr (.inl ⟨rfl, h'.1, h'.2, by simp only [h, if_true]⟩))
    · have h' := h
      rw [Bool.and_eq_true, State.rxAvail_iff, not_and_or, not_not, Bool.not_eq_true] at h'
      exact .inr (.inr (.inr (.inl ⟨rfl, h', by simp only [if_neg h]⟩)))
  | engine a => exact .inr (.inr (.inr (.inr (.inl ⟨a, rfl, rfl⟩))))
  | reset q => exact .inr (.inr (.inr (.inr (.inr ⟨q, rfl, rfl⟩))))

/-- Everything the engine can do in its turn (R151). -/
theorem engineStep_cases (a : Config.WriteAnswer) (s : State) :
    (s.fsm = .idle ∧ engineStep a s = .next s) ∨ (s.fsm = .send ∧ engineStep a s = sendStep a s) ∨
    (s.receiving = true ∧ engineStep a s = rxByteStep s) := by
  unfold engineStep
  cases h : s.fsm <;> simp [h]

end Sys2Proof.Machine
end

