-- ==== Sys2Proof/Laws/PerInstr.lean ====
section
/-! SUPPORT. Statements made per instruction: the descriptor of an operation is selected by the operation's own row of
R101's table, whatever the operands. -/

namespace Sys2Proof.Laws.RowSelects

/-- The row named like the operation selects the operation's descriptor (R101). -/
def Statement (i : Instr) : Prop := ∃ r ∈ opcodeTable, r.mnemonic = i.mnemonic ∧ r.Selects (encode i)

/-- A row whose mask is the word of `m` selects the word of `f` when masking `f` field by field gives the match. -/
theorem selects_of_fields (i : Instr) (r : Row) (m : Fields) (hr : r ∈ opcodeTable) (hn : r.mnemonic = i.mnemonic)
    (hm : r.maskBits = m.toWord)
    (hf : Fields.toWord ⟨i.fields.op &&& m.op, i.fields.len &&& m.len, i.fields.cmd &&& m.cmd, i.fields.v8 &&& m.v8,
      i.fields.rsv &&& m.rsv, i.fields.v32 &&& m.v32⟩ = r.matchBits) : Statement i :=
  ⟨r, hr, hn, by unfold Row.Selects encode; rw [hm, Fields.toWord_and, hf]⟩

theorem encS (cmd : Byte) : Statement (.encS cmd) := by
  refine selects_of_fields _ ⟨"ENC_S", 0x1000000000000000#64, 0xFF00FFFFFFFFFFFF#64⟩
    ⟨0xF#4, 0xF#4, 0x00#8, 0xFF#8, 0xFF#8, 0xFFFFFFFF#32⟩ (by decide) rfl (by decide) ?_
  simp [Instr.fields]; decide

theorem encP8 (cmd v8 : Byte) : Statement (.encP8 cmd v8) := by
  refine selects_of_fields _ ⟨"ENC_P8", 0x2000000000000000#64, 0xFF0000FFFFFFFFFF#64⟩
    ⟨0xF#4, 0xF#4, 0x00#8, 0x00#8, 0xFF#8, 0xFFFFFFFF#32⟩ (by decide) rfl (by decide) ?_
  simp [Instr.fields]; decide

theorem encP16 (cmd : Byte) (v16 : BitVec 16) : Statement (.encP16 cmd v16) := by
  refine selects_of_fields _ ⟨"ENC_P16", 0x3000000000000000#64, 0xFF00FFFFFFFF0000#64⟩
    ⟨0xF#4, 0xF#4, 0x00#8, 0xFF#8, 0xFF#8, 0xFFFF#16 ++ 0x0000#16⟩ (by decide) rfl (by decide) ?_
  have hv : (0#16 ++ v16 : BitVec 32) &&& (0xFFFF#16 ++ 0x0000#16) = 0#32 := by
    apply BitVec.eq_of_getLsbD_eq
    intro k hk
    simp only [BitVec.getLsbD_and, BitVec.getLsbD_append, BitVec.getLsbD_zero]
    grind
  simp only [Instr.fields]
  rw [hv]
  simp; decide

theorem encP8P32 (cmd v8 : Byte) (v32 : BitVec 32) : Statement (.encP8P32 cmd v8 v32) := by
  refine selects_of_fields _ ⟨"ENC_P8P32", 0x4000000000000000#64, 0xFF0000FF00000000#64⟩
    ⟨0xF#4, 0xF#4, 0x00#8, 0x00#8, 0xFF#8, 0x00000000#32⟩ (by decide) rfl (by decide) ?_
  simp [Instr.fields]; decide

theorem xfer (len : BitVec 4) : Statement (.xfer len) := by
  refine selects_of_fields _ ⟨"XFER", 0x5000000000000000#64, 0xF0FFFFFFFFFFFFFF#64⟩
    ⟨0xF#4, 0x0#4, 0xFF#8, 0xFF#8, 0xFF#8, 0xFFFFFFFF#32⟩ (by decide) rfl (by decide) ?_
  simp [Instr.fields]; decide

theorem setaddr (v8 : Byte) : Statement (.setaddr v8) := by
  refine selects_of_fields _ ⟨"SETADDR", 0x6000000000000000#64, 0xFFFF00FFFFFFFFFF#64⟩
    ⟨0xF#4, 0xF#4, 0xFF#8, 0x00#8, 0xFF#8, 0xFFFFFFFF#32⟩ (by decide) rfl (by decide) ?_
  simp [Instr.fields]; decide

theorem decStatus : Statement .decStatus := by unfold Statement; decide

theorem decI16 : Statement .decI16 := by unfold Statement; decide

theorem decI32 : Statement .decI32 := by unfold Statement; decide

theorem decPos64 : Statement .decPos64 := by unfold Statement; decide

theorem csumClr : Statement .csumClr := by unfold Statement; decide

theorem csumAdd (v8 : Byte) : Statement (.csumAdd v8) := by
  refine selects_of_fields _ ⟨"CSUM_ADD", 0xD000000000000000#64, 0xFFFF00FFFFFFFFFF#64⟩
    ⟨0xF#4, 0xF#4, 0xFF#8, 0x00#8, 0xFF#8, 0xFFFFFFFF#32⟩ (by decide) rfl (by decide) ?_
  simp [Instr.fields]; decide

end Sys2Proof.Laws.RowSelects
end

