-- ==== Sys2Proof/Laws/Runs.lean ====
section
/-! SUPPORT. Runs of several steps: cut in two, and what is counted in them, one step at a time. -/

namespace Sys2Proof.Machine

@[simp] theorem stepsFrom_zero (s : State) : stepsFrom 0 s = some s := rfl

theorem stepsFrom_succ {s t : State} (n : Nat) (h : step s = .next t) : stepsFrom (n + 1) s = stepsFrom n t := by
  simp [stepsFrom, h]

/-- A run of `m + n` steps is a run of `m` steps and then one of `n`. -/
theorem stepsFrom_add (m n : Nat) (s : State) : stepsFrom (m + n) s = (stepsFrom m s).bind (stepsFrom n) := by
  induction m generalizing s with
  | zero => simp
  | succ m ih =>
    rw [Nat.succ_add]
    cases h : step s with
    | next t => rw [stepsFrom_succ _ h, stepsFrom_succ _ h, ih]
    | fault r => simp [stepsFrom, h]
    | refused r => simp [stepsFrom, h]

@[simp] theorem countSteps_zero (p : State → Bool) (s : State) : countSteps p 0 s = 0 := rfl

theorem countSteps_succ (p : State → Bool) {s t : State} (n : Nat) (h : step s = .next t) :
    countSteps p (n + 1) s = (p s).toNat + countSteps p n t := by
  simp [countSteps, h]

@[simp] theorem staysInCall_zero (s : State) : staysInCall 0 s = true := rfl

/-- A run within a call starts in the call, with a step that has a next state and is no reset, and goes on within it. -/
theorem staysInCall_succ_iff (n : Nat) (s : State) :
    staysInCall (n + 1) s = true ↔
      s.fsm ≠ .idle ∧ (∀ queued, s.nextMove ≠ .reset queued) ∧ ∃ t, step s = .next t ∧ staysInCall n t = true := by
  rw [staysInCall]
  cases hm : s.nextMove <;> cases h : step s <;> simp [State.ready]

end Sys2Proof.Machine
end

