-- ==== Sys2Proof/Laws/Step.lean ====
section
/-! SUPPORT. What one step can do, and the form of the state that every step keeps: the parameters stay as they are and
the frame buffers keep their capacity. -/

namespace Sys2Proof.Machine

/-- One step is the transfer of the oldest waiting request, in IDLE only (R40), or one move of the environment. -/
theorem step_cases (s : State) :
    (∃ w rest, s.fsm = .idle ∧ s.requests = w :: rest ∧
      step s = transferRequest w { s with requests := rest }) ∨
    ((s.fsm ≠ .idle ∨ s.requests = []) ∧ step s = environmentStep s) := by
  by_cases hi : s.fsm = .idle
  · cases hq : s.requests with
    | nil => exact .inr ⟨.inr rfl, by unfold step; rw [fetchRequest_nil s hq]⟩
    | cons w rest =>
      exact .inl ⟨w, rest, hi, rfl, by unfold step; rw [fetchRequest_idle_cons s w rest hi hq]⟩
  · exact .inr ⟨.inl hi, by unfold step; rw [fetchRequest_busy s hi]⟩

/-- A transferred request is an operation carried out or a BADREQ (R110 (1)). -/
theorem transferRequest_cases (w : Desc) (s : State) :
    (∃ i, decode w = .ok i ∧ transferRequest w s = exec i s) ∨
    (∃ why, decode w = .error why ∧ transferRequest w s = .next (badReq s)) := by
  unfold transferRequest
  cases decode w with
  | ok i => exact .inl ⟨i, rfl, rfl⟩
  | error why => exact .inr ⟨why, rfl, rfl⟩

/-! ### The form every step keeps -/

/-- The two states have the same parameters and buffers of the same capacity. -/
abbrev State.SameForm (s t : State) : Prop :=
  t.cfg = s.cfg ∧ t.txbuf.length = s.txbuf.length ∧ t.rxbuf.length = s.rxbuf.length

/-- States of the same form have well-formed buffers together. -/
theorem State.BuffersWf.of_sameForm {s t : State} (hs : s.BuffersWf) (h : s.SameForm t) : t.BuffersWf := by
  obtain ⟨hc, ht, hr⟩ := h
  exact ⟨hc ▸ hs.1, by rw [ht, hs.2.1, hc], by rw [hr, hs.2.2, hc]⟩

theorem attemptFail_sameForm (c : Cause) (s : State) : s.SameForm (attemptFail c s) := by
  rcases attemptFail_cases c s with ⟨-, h⟩ | ⟨-, h⟩ <;> rw [h] <;> exact ⟨rfl, rfl, rfl⟩

theorem tickStep_sameForm (s : State) : s.SameForm (tickStep s) := by
  rcases tickStep_cases s with ⟨-, h⟩ | ⟨-, -, h⟩ | ⟨-, -, h⟩ <;> rw [h]
  · exact ⟨rfl, rfl, rfl⟩
  · exact ⟨rfl, rfl, rfl⟩
  · exact attemptFail_sameForm _ _

theorem hostOp_sameForm (s t : State) (k : State → Host.Outcome State Fault Refusal)
    (hk : k s = .next t → s.SameForm t) (h : hostOp s k = .next t) : s.SameForm t := by
  by_cases hi : s.fsm = .idle
  · rw [hostOp_idle s k hi] at h; exact hk h
  · rw [hostOp_busy s k hi] at h; cases h; exact ⟨rfl, rfl, rfl⟩

theorem encodeFrame_sameForm (body : List Byte) (s t : State) (h : encodeFrame body s = .next t) : s.SameForm t := by
  rcases encodeFrame_cases body s with ⟨hl, he⟩ | ⟨-, he⟩ <;> rw [he] at h <;> cases h
  exact ⟨rfl, by simp; omega, rfl⟩

theorem decodeFrame_sameForm (need : Nat) (value : List Byte → BitVec 64) (s t : State)
    (h : decodeFrame need value s = .next t) : s.SameForm t := by
  rcases decodeFrame_cases need value s with ⟨-, he⟩ | ⟨-, -, he⟩ | ⟨-, -, -, he⟩ | ⟨-, -, -, he⟩ <;>
    rw [he] at h <;> cases h <;> exact ⟨rfl, rfl, rfl⟩

/-- No host operation changes the form of the state. -/
theorem exec_sameForm (i : Instr) (s t : State) (h : exec i s = .next t) : s.SameForm t := by
  cases i with
  | encS => exact hostOp_sameForm s t _ (encodeFrame_sameForm _ s t) h
  | encP8 => exact hostOp_sameForm s t _ (encodeFrame_sameForm _ s t) h
  | encP16 => exact hostOp_sameForm s t _ (encodeFrame_sameForm _ s t) h
  | encP8P32 => exact hostOp_sameForm s t _ (encodeFrame_sameForm _ s t) h
  | decStatus => exact hostOp_sameForm s t _ (decodeFrame_sameForm _ _ s t) h
  | decI16 => exact hostOp_sameForm s t _ (decodeFrame_sameForm _ _ s t) h
  | decI32 => exact hostOp_sameForm s t _ (decodeFrame_sameForm _ _ s t) h
  | decPos64 => exact hostOp_sameForm s t _ (decodeFrame_sameForm _ _ s t) h
  | setaddr v8 =>
    simp only [exec, execSetaddr] at h
    exact hostOp_sameForm s t _ (fun he => by cases he; exact ⟨rfl, rfl, rfl⟩) h
  | csumClr =>
    simp only [exec, execCsumClr] at h
    exact hostOp_sameForm s t _ (fun he => by cases he; exact ⟨rfl, rfl, rfl⟩) h
  | csumAdd v8 =>
    simp only [exec, execCsumAdd] at h
    exact hostOp_sameForm s t _ (fun he => by cases he; exact ⟨rfl, rfl, rfl⟩) h
  | xfer len =>
    by_cases hi : s.fsm = .idle
    · rcases execXfer_cases len s hi with ⟨-, he⟩ | ⟨-, -, -, he⟩ <;>
        (rw [show exec (.xfer len) s = execXfer len s from rfl, he] at h; cases h; exact ⟨rfl, rfl, rfl⟩)
    · have hw : execXfer len s = .next s := hostOp_busy s _ hi
      rw [show exec (.xfer len) s = execXfer len s from rfl, hw] at h
      cases h; exact ⟨rfl, rfl, rfl⟩

theorem acceptByte_sameForm (b : Byte) (s t : State) (h : acceptByte b s = .next t) : s.SameForm t := by
  rcases acceptByte_cases b s with ⟨-, he⟩ | ⟨-, -, he⟩ | ⟨-, -, -, he⟩ | ⟨-, -, -, he⟩ <;>
    rw [he] at h <;> cases h <;> exact ⟨rfl, rfl, by simp⟩

theorem rxByteStep_sameForm (s t : State) (h : rxByteStep s = .next t) : s.SameForm t := by
  rcases rxByteStep_cases s with ⟨-, he⟩ | ⟨_, _, -, -, -, he⟩ | ⟨b, rest, -, -, he⟩ <;> rw [he] at h
  · cases h; exact ⟨rfl, rfl, rfl⟩
  · cases h; exact ⟨rfl, rfl, rfl⟩
  · exact acceptByte_sameForm b { s with rxq := rest } t h

theorem sendStep_sameForm (a : Config.WriteAnswer) (s t : State) (h : sendStep a s = .next t) : s.SameForm t := by
  rcases sendStep_cases a s with ⟨-, he⟩ | ⟨-, -, he⟩ | ⟨-, k, -, he⟩ <;> rw [he] at h <;> cases h
  · exact ⟨rfl, rfl, rfl⟩
  · have := attemptFail_sameForm .write { s with
      att := s.att + 1#4, rxq := [], rxcnt := 0#4, acc := 0#8, txs := s.txs ++ s.txFrame.take k }
    exact this

theorem engineStep_sameForm (a : Config.WriteAnswer) (s t : State) (h : engineStep a s = .next t) :
    s.SameForm t := by
  rcases engineStep_cases a s with ⟨-, he⟩ | ⟨-, he⟩ | ⟨-, he⟩ <;> rw [he] at h
  · cases h; exact ⟨rfl, rfl, rfl⟩
  · exact sendStep_sameForm a s t h
  · exact rxByteStep_sameForm s t h

/-- Every step keeps the parameters and the capacity of the buffers. -/
theorem step_keeps_buffers (s t : State) (hs : s.BuffersWf) (h : step s = .next t) : t.BuffersWf := by
  rcases step_cases s with ⟨w, rest, -, -, he⟩ | ⟨-, he⟩ <;> rw [he] at h
  · have hs' : ({ s with requests := rest } : State).BuffersWf := hs
    rcases transferRequest_cases w { s with requests := rest } with ⟨i, -, ht⟩ | ⟨-, -, ht⟩ <;> rw [ht] at h
    · exact hs'.of_sameForm (exec_sameForm i _ t h)
    · cases h; exact hs'
  · have hd : s.dropMove.BuffersWf := hs.of_sameForm ⟨by simp, by simp, by simp⟩
    rcases environmentStep_cases s with ⟨w, -, hm⟩ | ⟨b, -, hm⟩ | ⟨-, -, -, hm⟩ | ⟨-, -, hm⟩ | ⟨a, -, hm⟩ |
      ⟨q, -, hm⟩ <;> rw [hm] at h
    · cases h; exact hd
    · cases h; exact hd.of_sameForm ⟨by simp, by simp, by simp⟩
    · exact hs.of_sameForm (rxByteStep_sameForm s t h)
    · cases h; exact hd.of_sameForm (tickStep_sameForm _)
    · exact hd.of_sameForm (engineStep_sameForm a _ t h)
    · cases h; exact ⟨hd.1, by simp, by simp⟩

/-- The buffers are well formed right after reset. -/
theorem reset_buffers : State.reset.BuffersWf := by decide

end Sys2Proof.Machine
end

