-- ==== Sys2Proof/Tests/Slice0.lean ====
section
/-! SUPPORT. Tests of single steps, every expected value from 95_test_vectors.md (cited by section and row) or from the
numbered rule named, and for every statement with hypotheses a state and operands that meet them (`witness_…`). -/

namespace Sys2Proof.Tests

open Sys2Proof Sys2Proof.Machine Sys2Proof.Config

-- `State.Inv` is a conjunction of some forty decidable parts.
set_option synthInstance.maxSize 1000

/-! ### Small states -/

/-- The state of R45 with an empty RXQ, the start of 95_test_vectors.md. -/
def start : State := State.initial Params.default []

/-- `start` after ENC_S 0x3D, without its acknowledge (2.3). -/
def framed : State :=
  { start with txbuf := [0xE0, 0x3D, 0x1D, 0, 0, 0, 0, 0], txlen := 3, acc := 0x1D }

/-- A call with expected length 3 before its first SEND. -/
def sending : State := { framed with fsm := .send, rxlen := 3 }

/-- A receive phase as in 2.10: TIMER = 7, nothing accepted, these bytes queued. -/
def receiving (len : BitVec 4) (queued : List Byte) : State :=
  { framed with fsm := .sync, rxlen := len, att := 1, timer := 7, acc := 0, rxq := queued }

/-- Two bytes `E0 01` of three accepted. -/
def collecting (queued : List Byte) : State :=
  { receiving 3 queued with fsm := .accum, rxcnt := 2, rxbuf := [0xE0, 0x01, 0, 0, 0, 0, 0, 0], acc := 0xE1 }

/-- A call that has ended with RES = OK and this frame (2.8). -/
def answered (frame : List Byte) : State :=
  { framed with
    rxbuf := frame ++ List.replicate (8 - frame.length) 0
    rxcnt := BitVec.ofNat 4 frame.length
    rxlen := BitVec.ofNat 4 frame.length
    res := .ok
    att := 1 }

/-- Short parameters, so that a whole call is a few moves. -/
def quick : Params := { Params.default with timeoutMs := 1 }

/-- `s` with these moves of the environment to come. -/
def facing (moves : List Move) (s : State) : State := { s with agenda := moves }

/-- Does the outcome go on, in a state with this property? -/
def goesOn (o : Host.Outcome State Fault Refusal) (p : State → Bool) : Bool :=
  match o with
  | .next t => p t
  | .fault _ => false
  | .refused _ => false

/-! ### Well-formedness and parameters -/

/-- 2.9: XFER 0, 2, 9 and 15 are refused by value. -/
theorem test_xfer_lengths_ill_formed :
    ∀ len ∈ [0#4, 2#4, 9#4, 15#4], Instr.wellFormed Params.default (.xfer len) = false := by decide

/-- R104: 3 to 8 are legal. -/
theorem test_xfer_lengths_well_formed :
    ∀ len ∈ [3#4, 4#4, 5#4, 6#4, 7#4, 8#4], Instr.wellFormed Params.default (.xfer len) = true := by decide

theorem test_default_params_legal : Params.default.Legal ∧ quick.Legal := by decide

/-- R6, R7, R9: each constraint refuses a value just outside it. -/
theorem test_illegal_params :
    ∀ p ∈ ([{ quick with timeoutMs := 0 }, { quick with timeoutMs := 65535 }, { quick with tickMs := 2 },
      { quick with tickMs := 0 }, { quick with maxAttempts := 0 }, { quick with maxAttempts := 16 },
      { quick with maxFrame := 7 }, { quick with maxFrame := 16 }, { quick with minRxLen := 2 },
      { quick with minRxLen := 9 }, { quick with rxPerTick := 0 }] : List Params), ¬ p.Legal := by decide

/-- R9: 3000 ms in ticks of 1 ms. -/
theorem test_timeout_ticks : Params.default.timeoutTicks = 3000 := by decide

/-- R8 and R245: 8N1 is 10 bit times; 3, 4, 5, 6 and 8 bytes in microseconds; 3.84 bytes a millisecond. -/
theorem test_line_times :
    Params.default.framing.bitTimes = 10 ∧
    [1, 3, 4, 5, 6, 8].map (fun n => Params.default.lineTimeNs n / 1000) = [260, 781, 1041, 1302, 1562, 2083] ∧
    Params.default.lineBytesPerTick = Params.default.rxPerTick := by decide

/-! ### Descriptor words, written out from R98 and R100 (the word columns of 2.2 to 2.9) -/

theorem test_decode_encS : decode 0x10FF000000000000 = .ok (.encS 0xFF) := by decide
theorem test_decode_encS_zero : decode 0x1000000000000000 = .ok (.encS 0) := by decide
theorem test_decode_encP8 : decode 0x2084100000000000 = .ok (.encP8 0x84 0x10) := by decide
theorem test_decode_encP16 : decode 0x30A400000000FEE2 = .ok (.encP16 0xA4 0xFEE2) := by decide
theorem test_decode_encP8P32 : decode 0x40FD060012345678 = .ok (.encP8P32 0xFD 0x06 0x12345678) := by decide
theorem test_decode_xfer : decode 0x5900000000000000 = .ok (.xfer 9) := by decide
theorem test_decode_setaddr : decode 0x6000E10000000000 = .ok (.setaddr 0xE1) := by decide
theorem test_decode_decStatus : decode 0x8000000000000000 = .ok .decStatus := by decide
theorem test_decode_decI16 : decode 0x9000000000000000 = .ok .decI16 := by decide
theorem test_decode_decI32 : decode 0xA000000000000000 = .ok .decI32 := by decide
theorem test_decode_decPos64 : decode 0xB000000000000000 = .ok .decPos64 := by decide
theorem test_decode_csumClr : decode 0xC000000000000000 = .ok .csumClr := by decide
theorem test_decode_csumAdd : decode 0xD0003D0000000000 = .ok (.csumAdd 0x3D) := by decide

/-- 2.9: the reserved operation codes. -/
theorem test_decode_reserved_op :
    decode 0x0000000000000000 = .error .reservedOp ∧ decode 0x7000000000000000 = .error .reservedOp ∧
    decode 0xE000000000000000 = .error .reservedOp ∧ decode 0xF000000000000000 = .error .reservedOp := by decide

/-- 2.2, 2.5, 2.6, 2.9: words with a bit where the operation allows none. -/
theorem test_decode_unused_fields :
    decode 0x103D000100000000 = .error .rsvNotZero ∧ decode 0x40FD860100000C80 = .error .rsvNotZero ∧
    decode 0x113D000000000000 = .error .lenUnused ∧ decode 0x533D000000000000 = .error .cmdUnused ∧
    decode 0x60E1000000000000 = .error .cmdUnused ∧ decode 0xD0E0000000000000 = .error .cmdUnused ∧
    decode 0x103D010000000000 = .error .v8Unused ∧ decode 0x8000000000000001 = .error .v32Unused ∧
    decode 0xC000000000000001 = .error .v32Unused ∧ decode 0x30A4000000010000 = .error .v32Unused ∧
    decode 0x30A40000FFFFFEE2 = .error .v32Unused := by decide

/-- R112: the operation as text. -/
theorem test_text : instrText (.encP16 0xA4 286) = "ENC_P16 164, 286" := by rfl

/-! ### Host operations, one step each -/

/-- 2.3: ADDR 0x01, the sum wraps to 0. -/
theorem test_encS_wraps :
    goesOn (exec (.encS 0xFF) { start with addr := 0x01 }) (fun t =>
      t.txFrame == [0x01, 0xFF, 0x00] && t.acc == 0) = true := by decide

/-- P4, then 2.3: a shorter frame over a longer one leaves the rest of TXBUF alone (R22). -/
theorem test_encS_leaves_the_rest :
    goesOn (exec (.encS 0x3D) { start with txbuf := [1, 2, 3, 4, 5, 6, 7, 8], txlen := 8 }) (fun t =>
      t.txbuf == [0xE0, 0x3D, 0x1D, 4, 5, 6, 7, 8] && t.txlen == 3) = true := by decide

/-- 2.4. -/
theorem test_encP8 :
    goesOn (exec (.encP8 0x84 0x80) { start with addr := 0xE9 }) (fun t =>
      t.txFrame == [0xE9, 0x84, 0x80, 0xED] && t.acc == 0xED) = true := by decide

/-- 2.5: the payload -286. -/
theorem test_encP16 :
    goesOn (exec (.encP16 0xA4 0xFEE2) start) (fun t => t.txFrame == [0xE0, 0xA4, 0xFE, 0xE2, 0x64]) = true := by
  decide

/-- 2.6. -/
theorem test_encP8P32 :
    goesOn (exec (.encP8P32 0xFD 0x06 0x12345678) start) (fun t =>
      t.txFrame == [0xE0, 0xFD, 0x06, 0x12, 0x34, 0x56, 0x78, 0xF7]) = true := by decide

/-- 2.2. -/
theorem test_csumClr : goesOn (exec .csumClr framed) (fun t => t.acc == 0 && t.status == 0x00) = true := by decide

/-- 2.2: 0xFF and 0xFF. -/
theorem test_csumAdd_wraps : goesOn (exec (.csumAdd 0xFF) { start with acc := 0xFF }) (fun t => t.acc == 0xFE) = true := by
  decide

/-- R180: the frame already encoded keeps the old address (R184). -/
theorem test_setaddr :
    goesOn (exec (.setaddr 0xE1) framed) (fun t => t.addr == 0xE1 && t.txFrame == [0xE0, 0x3D, 0x1D]) = true := by
  decide

/-- 2.9: XFER 8 accepted. -/
theorem test_xfer_accepted :
    goesOn (exec (.xfer 8) framed) (fun t => t.rxlen == 8 && t.status == 0x01 && t.ack == some .accepted) = true := by
  decide

/-- 2.9: XFER 3 at reset and XFER 9. -/
theorem test_xfer_refused :
    exec (.xfer 3) start = .next { start with ack := some .badReq } ∧
    exec (.xfer 9) framed = .next { framed with ack := some .badReq } := ⟨rfl, rfl⟩

/-- 2.8: `E0 FF DF`. -/
theorem test_decStatus :
    goesOn (exec .decStatus (answered [0xE0, 0xFF, 0xDF])) (fun t => t.rdata == 255 && t.rvalid) = true := by decide

/-- 2.8, gating: after a timeout RDATA is cleared. -/
theorem test_dec_without_frame :
    goesOn (exec .decI32 { framed with res := .errTimeout, rdata := 131172 }) (fun t =>
      t.rdata == 0 && !t.rvalid && t.ack == some .accepted) = true := by decide

/-- 2.8: `E0 80 00 60` is -32768, and a frame of length 3 is refused. -/
theorem test_decI16 :
    goesOn (exec .decI16 (answered [0xE0, 0x80, 0x00, 0x60])) (fun t => t.rdata == 0xFFFFFFFFFFFF8000) = true ∧
    goesOn (exec .decI16 (answered [0xE0, 0x01, 0xE1])) (fun t => t.ack == some .badReq && t.rdata == 0) = true := by
  decide

/-- 2.8: `E0 FF FF FF 00 DD` is -256. -/
theorem test_decI32 :
    goesOn (exec .decI32 (answered [0xE0, 0xFF, 0xFF, 0xFF, 0x00, 0xDD])) (fun t =>
      t.rdata == 0xFFFFFFFFFFFFFF00) = true := by decide

/-- 2.8: carrier -3 and sub-position 65436 are -131172. -/
theorem test_decPos64 :
    goesOn (exec .decPos64 (answered [0xE0, 0xFF, 0xFF, 0xFF, 0xFD, 0xFF, 0x9C, 0x75])) (fun t =>
      t.rdata == 0xFFFFFFFFFFFDFF9C) = true := by decide

/-- 2.8, mixed widths: one 8-byte frame, DEC_I32 reads the carrier. -/
theorem test_mixed_widths :
    goesOn (exec .decI32 (answered [0xE0, 0x00, 0x00, 0x00, 0x02, 0x00, 0x64, 0x46])) (fun t => t.rdata == 2) = true := by
  decide

/-! ### Steps of the machine -/

/-- P6: a reserved word is answered BADREQ and changes nothing else. -/
theorem test_step_reserved_word :
    step (start.withFetchWord 64 0x7000000000000000) = .next { start with ack := some .badReq } := rfl

/-- P1 stage 1, from the word. -/
theorem test_step_runs_word :
    goesOn (step (start.withFetchWord 64 0x103D000000000000)) (fun t =>
      t.txFrame == [0xE0, 0x3D, 0x1D] && t.requests == []) = true := by decide

/-- R40: during a call the word waits. -/
theorem test_request_waits :
    goesOn (step (facing [.tick] (sending.withFetchWord 64 0xC000000000000000))) (fun t =>
      t.requests == [0xC000000000000000] && t.acc == 0x1D && t.ack == none) = true := by decide

/-- 2.12: ok, stale bytes flushed. -/
theorem test_send_ok :
    goesOn (step (facing [.engine .ok] { sending with rxq := [0x55, 0xAA] })) (fun t =>
      t.rxq == [] && t.txs == [0xE0, 0x3D, 0x1D] && t.status == 0x11) = true := by decide

/-- 2.12: err k = 2 with attempts left. -/
theorem test_send_err_retries :
    goesOn (step (facing [.engine (.err 2)] sending)) (fun t =>
      t.txs == [0xE0, 0x3D] && t.att == 1 && t.fsm == .send) = true := by decide

/-- 2.12: err k = 1 at the third attempt. -/
theorem test_send_err_fails :
    goesOn (step (facing [.engine (.err 1)] { sending with att := 2 })) (fun t =>
      t.txs == [0xE0] && t.res == .errWrite && t.status == 0x36) = true := by decide

/-- 2.10, X2: a byte that is not the address is discarded and the timer runs on. -/
theorem test_rxbyte_discards :
    goesOn (step (facing [.engine .ok] (receiving 3 [0x55]))) (fun t =>
      t.fsm == .sync && t.timer == 7 && t.rxq == []) = true := by decide

/-- 2.10, X3. -/
theorem test_rxbyte_anchors :
    goesOn (step (facing [.engine .ok] (receiving 3 [0xE0]))) (fun t =>
      t.rxcnt == 1 && t.acc == 0xE0 && t.timer == 0 && t.status == 0x19) = true := by decide

/-- 2.10, X1, its last byte. -/
theorem test_rxbyte_ends :
    goesOn (step (facing [.engine .ok] (collecting [0xE1]))) (fun t =>
      t.res == .ok && t.rxcnt == 3 && t.acc == 0xE1 && t.status == 0x12) = true := by decide

/-- 2.10, X8, its third byte: stored, then the receiver starts over. -/
theorem test_rxbyte_mismatch :
    goesOn (step (facing [.engine .ok] (collecting [0x1E, 0xFF]))) (fun t =>
      t.fsm == .sync && t.rxcnt == 0 && t.acc == 0 && t.rxq == [0xFF] && t.rxbuf.take 3 == [0xE0, 0x01, 0x1E]) =
      true := by decide

/-- 2.11: 3000 does not exceed 3000. -/
theorem test_tick_at_the_limit :
    goesOn (step (facing [.tick] { receiving 3 [] with timer := 2999 })) (fun t =>
      t.fsm == .sync && t.timer == 3000) = true := by decide

/-- 2.11: the partial frame is dropped. -/
theorem test_tick_retries :
    goesOn (step (facing [.tick] { collecting [] with timer := 3000 })) (fun t =>
      t.fsm == .send && t.timer == 3001 && t.rxcnt == 0 && t.acc == 0) = true := by decide

/-- 2.11: the third attempt. -/
theorem test_tick_fails :
    goesOn (step (facing [.tick] { receiving 3 [] with timer := 3000, att := 3 })) (fun t =>
      t.res == .errTimeout && t.timer == 3001 && t.status == 0x34) = true := by decide

/-- 2.11: the byte is taken first, the tick is still to come. -/
theorem test_tick_after_byte :
    goesOn (step (facing [.tick] { receiving 3 [0xE0] with timer := 3000 })) (fun t =>
      t.fsm == .accum && t.timer == 0 && t.agenda == [.tick]) = true := by decide

/-- 2.11: a TICK in IDLE. -/
theorem test_tick_idle :
    step (facing [.tick] { start with timer := 3001 }) = .next { start with timer := 3001 } := rfl

/-- R220: reset in the middle of a call. -/
theorem test_reset_during_call :
    goesOn (step (facing [.reset [0x55]] (collecting [0xE1]))) (fun t =>
      t.fsm == .idle && t.rxcnt == 0 && t.rxq == [0x55] && t.status == 0x00) = true := by decide

/-- R150 leaves RXCNT alone: a shorter call after an 8-byte frame has RXCNT above RXLEN until SEND (log 10). -/
theorem test_rxcnt_above_rxlen :
    goesOn (exec (.xfer 3) (answered [0xE0, 0x00, 0x00, 0x00, 0x02, 0x00, 0x64, 0x46])) (fun t =>
      t.fsm == .send && t.rxcnt == 8 && t.rxlen == 3) = true := by decide

/-- Outside the invariant only: a TXLEN beyond the buffer stops SEND (log 9). -/
theorem test_buffer_fault :
    step (facing [.engine .ok] { sending with txlen := 15 }) = .fault .bufferIndex := rfl

/-! ### Other pure functions -/

/-- 2.1: the largest sum a frame can have. -/
theorem test_checksum : checksum (List.replicate 7 0xFF) 7 = 0xF9 ∧ checksum [0xE0, 0x20] 2 = 0 := by decide

/-- 2.8: the frames a device sends for -286 and for -131172. -/
theorem test_device_frames :
    frameI16 0xE0 (-286) = [0xE0, 0xFE, 0xE2, 0xC0] ∧
    framePos64 0xE0 (-131172) = [0xE0, 0xFF, 0xFF, 0xFF, 0xFD, 0xFF, 0x9C, 0x75] := by decide

/-- R77: P2's stage 6 delivers more than four bytes in one tick (log 13). -/
theorem test_rate_bound :
    rateBounded 4 0 (List.replicate 4 (.append 0) ++ [.tick, .append 0]) = true ∧
    rateBounded 4 0 (List.replicate 5 (.append 0)) = false := by decide

/-! ### Witnesses: for each statement with hypotheses, and for each of its clauses, a state and operands that meet them -/

/-- AfterResetNothingToSendOrRead and ResetValues have no hypotheses; this is R45's IDLE in `start`. -/
theorem witness_start : start.Inv ∧ start.ready = true ∧ start.requests = [] := by decide

/-- HardwareResetRestoresResetState: in a call with a request waiting, in IDLE with none, in IDLE with two. -/
theorem witness_HardwareResetRestoresResetState :
    (let s := facing [.reset [0x55]] { collecting [0xE1] with requests := [0xC000000000000000] }
     s.agenda = .reset [0x55] :: [] ∧ (s.fsm ≠ .idle ∨ s.requests = [])) ∧
    (let s := facing [.reset []] start
     s.agenda = .reset [] :: [] ∧ (s.fsm ≠ .idle ∨ s.requests = [])) ∧
    (let s := facing [.reset []] { framed with requests := [0x5300000000000000, 0x8000000000000000] }
     s.agenda = .reset [] :: [] ∧ s.fsm = .idle ∧ s.BuffersWf) := by decide

/-- LinkParametersAreReadByNoStep: a SEND step. -/
theorem witness_LinkParametersAreReadByNoStep :
    goesOn (step (facing [.engine .ok] sending)) (fun _ => true) = true := by decide

/-- EncSBuildsFrame, EncP8BuildsFrame, EncP16BuildsFrame, EncP8P32BuildsFrame, EncodedFrameReadsBack. -/
theorem witness_EncBuildsFrame : start.fsm = .idle ∧ start.BuffersWf := by decide

/-- CsumClrClears, CsumAddAdds, SetaddrChangesOnlyAddr. -/
theorem witness_idle_operations : framed.fsm = .idle := by decide

/-- CsumSequenceGivesChecksum, with the bytes in another order (2.1). -/
theorem witness_CsumSequenceGivesChecksum :
    let s := { start with requests := [0xC000000000000000, 0xD0003D0000000000, 0xD000E00000000000] }
    s.fsm = .idle ∧ [0x3D#8, 0xE0#8].Perm [0xE0#8, 0x3D#8] ∧
    s.requests = encode .csumClr :: ([0x3D#8, 0xE0#8].map fun b => encode (.csumAdd b)) ++ [] := by decide

/-- ChecksumFaultsSingleByteChanges: a changed trailer, a changed summed byte, and two summed bytes. -/
theorem witness_ChecksumFaultsSingleByteChanges :
    let f : List Byte := [0xE0, 0x01, 0xE1]
    2 ≤ 3 ∧ 3 ≤ f.length ∧ FrameOk f 3 ∧ (2 < 3 ∧ 0x00#8 ≠ byteAt f 2) ∧ (0 < 3 ∧ 0xE1#8 ≠ byteAt f 0) ∧
    (0 < 3 - 1 ∧ 1 < 3 - 1 ∧ 0 ≠ 1) := by decide

/-- XferStartsCallOrIsRefused: no frame; lengths 2 and 9; lengths 3 and 8. -/
theorem witness_XferStartsCallOrIsRefused :
    (start.fsm = .idle ∧ start.txlen = 0#4) ∧
    (framed.fsm = .idle ∧ (2#4).toNat < framed.cfg.minRxLen ∧ framed.cfg.maxFrame < (9#4).toNat) ∧
    (framed.txlen ≠ 0#4 ∧ ∀ len ∈ [3#4, 8#4],
      framed.cfg.minRxLen ≤ len.toNat ∧ len.toNat ≤ framed.cfg.maxFrame) := by decide

/-- DecodingIsGated: RES not OK; RXLEN one too short, and just enough, for each operation that can be refused. -/
theorem witness_DecodingIsGated :
    (start.fsm = .idle ∧ start.res ≠ .ok) ∧
    (∀ need ∈ [3, 4, 6, 8],
      let short := { answered [0xE0, 0x01, 0xE1] with rxlen := BitVec.ofNat 4 (need - 1) }
      let enough := { short with rxlen := BitVec.ofNat 4 need }
      (short.fsm = .idle ∧ short.res = .ok ∧ short.rxlen.toNat < need) ∧
      (enough.fsm = .idle ∧ enough.res = .ok ∧ need ≤ enough.rxlen.toNat ∧ enough.BuffersWf)) := by decide

/-- DecStatusDeliversByteOne: the shortest frame. -/
theorem witness_DecStatusDeliversByteOne :
    let s := answered [0xE0, 0x01, 0xE1]
    s.Inv ∧ s.fsm = .idle ∧ s.res = .ok := by decide

/-- DecI16DeliversSigned16: lengths 3 and 4. -/
theorem witness_DecI16DeliversSigned16 :
    (let s := answered [0xE0, 0x01, 0xE1]
     s.BuffersWf ∧ s.fsm = .idle ∧ s.res = .ok ∧ s.rxlen.toNat < 4) ∧
    (let s := answered [0xE0, 0x80, 0x00, 0x60]
     s.BuffersWf ∧ s.fsm = .idle ∧ s.res = .ok ∧ 4 ≤ s.rxlen.toNat) := by decide

/-- DecI32DeliversSigned32: lengths 5 and 6. -/
theorem witness_DecI32DeliversSigned32 :
    (let s := answered [0xE0, 0x00, 0x01, 0x00, 0xE1]
     s.BuffersWf ∧ s.fsm = .idle ∧ s.res = .ok ∧ s.rxlen.toNat < 6) ∧
    (let s := answered [0xE0, 0x80, 0x00, 0x00, 0x00, 0x60]
     s.BuffersWf ∧ s.fsm = .idle ∧ s.res = .ok ∧ 6 ≤ s.rxlen.toNat) := by decide

/-- DecPos64DeliversPosition: lengths 7 and 8. -/
theorem witness_DecPos64DeliversPosition :
    (let s := answered [0xE0, 0x00, 0x00, 0x00, 0x02, 0x00, 0xE2]
     s.BuffersWf ∧ s.fsm = .idle ∧ s.res = .ok ∧ s.rxlen.toNat < 8) ∧
    (let s := answered [0xE0, 0x80, 0x00, 0x00, 0x00, 0x00, 0x00, 0x60]
     s.BuffersWf ∧ s.fsm = .idle ∧ s.res = .ok ∧ 8 ≤ s.rxlen.toNat) := by decide

/-- NarrowDecodingReadsMostSignificant: the frame of 2.8's mixed widths. -/
theorem witness_NarrowDecodingReadsMostSignificant :
    let s := answered [0xE0, 0x00, 0x00, 0x00, 0x02, 0x00, 0x64, 0x46]
    s.BuffersWf ∧ s.fsm = .idle ∧ s.res = .ok ∧ 8 ≤ s.rxlen.toNat := by decide

/-- DecodingInvertsTheDevice: the least and the greatest value of each width (2.8). -/
theorem witness_DecodingInvertsTheDevice :
    (∀ x ∈ [(-32768 : Int), 32767],
      let s := answered (frameI16 0xE0 x)
      s.BuffersWf ∧ s.fsm = .idle ∧ s.res = .ok ∧ -32768 ≤ x ∧ x < 32768 ∧ s.rxlen = 4#4 ∧
      s.rxbuf.take 4 = frameI16 0xE0 x) ∧
    (∀ x ∈ [(-2147483648 : Int), 2147483647],
      let s := answered (frameI32 0xE0 x)
      s.BuffersWf ∧ s.fsm = .idle ∧ s.res = .ok ∧ -2147483648 ≤ x ∧ x < 2147483648 ∧ s.rxlen = 6#4 ∧
      s.rxbuf.take 6 = frameI32 0xE0 x) ∧
    (∀ x ∈ [(-140737488355328 : Int), 140737488355327],
      let s := answered (framePos64 0xE0 x)
      s.BuffersWf ∧ s.fsm = .idle ∧ s.res = .ok ∧ -140737488355328 ≤ x ∧ x < 140737488355328 ∧ s.rxlen = 8#4 ∧
      s.rxbuf.take 8 = framePos64 0xE0 x) := by decide

/-- ResultsStayUntilXfer: a status read twice, with an encoding between. -/
theorem witness_ResultsStayUntilXfer :
    (Instr.encS 0x3D).mnemonic ≠ "XFER" ∧ (answered [0xE0, 0x01, 0xE1]).BuffersWf ∧
    (answered [0xE0, 0x01, 0xE1]).fsm = .idle ∧
    ∃ t u, exec .decStatus (answered [0xE0, 0x01, 0xE1]) = .next t ∧ t.ack = some .accepted ∧
      exec (.encS 0x3D) (answered [0xE0, 0x01, 0xE1]) = .next u :=
  ⟨by decide, by decide, by decide, _, _, rfl, rfl, rfl⟩

/-- DecodeAgreesWithMatchAndMask: a selected word, its row, and the operation. -/
theorem witness_DecodeAgreesWithMatchAndMask :
    (∃ r ∈ opcodeTable, r.Selects 0x103D000000000000) ∧ decode 0x103D000000000000 = .ok (.encS 0x3D) := by decide

/-- ReservedWordsAreRefused: a reserved operation, RSV not zero, and another bit no row allows. -/
theorem witness_ReservedWordsAreRefused :
    (let s := { start with requests := [0x7000000000000000] }
     s.fsm = .idle ∧ s.requests = 0x7000000000000000 :: [] ∧
     (Fields.ofWord 0x7000000000000000).op ∈ [0x0#4, 0x7#4, 0xE#4, 0xF#4]) ∧
    (let s := { start with requests := [0x103D000100000000] }
     s.fsm = .idle ∧ s.requests = 0x103D000100000000 :: [] ∧ (Fields.ofWord 0x103D000100000000).rsv ≠ 0#8) ∧
    (let s := { start with requests := [0x8000000000000001] }
     s.fsm = .idle ∧ s.requests = 0x8000000000000001 :: [] ∧
     ∀ r ∈ opcodeTable, ¬ r.Selects 0x8000000000000001) := by decide

/-- BadReqHasExactlyFourReasons: each of the four reasons, and a call with a request waiting. -/
theorem witness_BadReqHasExactlyFourReasons :
    (∀ s ∈ [{ start with requests := [0x0000000000000000] }, { framed with requests := [0x5200000000000000] },
        { start with requests := [0x5300000000000000] },
        { answered [0xE0, 0x01, 0xE1] with requests := [0x9000000000000000] }],
      s.Inv ∧ s.fsm = .idle ∧ s.requests ≠ [] ∧ goesOn (step s) (fun t => t.ack == some .badReq) = true) ∧
    (let s := facing [.tick] { sending with requests := [0x5300000000000000] }
     s.Inv ∧ s.fsm ≠ .idle ∧ goesOn (step s) (fun t => t.ack == s.ack) = true) := by decide

/-- RequestsWaitDuringCall. -/
theorem witness_RequestsWaitDuringCall :
    let s := facing [.tick] { sending with requests := [0xC000000000000000] }
    s.fsm ≠ .idle ∧ goesOn (step s) (fun _ => true) = true := by decide

/-- StepRunsDecodedRequest, both clauses. -/
theorem witness_StepRunsDecodedRequest :
    (let s := { start with requests := [0x103D000000000000] }
     s.fsm = .idle ∧ s.requests = 0x103D000000000000 :: [] ∧ decode 0x103D000000000000 = .ok (.encS 0x3D)) ∧
    (start.fsm = .idle ∧ decodeTableWord 64 0x103D000000000000 = some (.encS 0x3D)) := by decide

/-- IdleBlockTakesNoStep: a TICK and an engine turn. -/
theorem witness_IdleBlockTakesNoStep :
    (let s := facing [.tick] start
     s.fsm = .idle ∧ s.requests = [] ∧ s.agenda = .tick :: []) ∧
    (let s := facing [.engine (.err 2)] start
     s.fsm = .idle ∧ s.requests = [] ∧ s.agenda = .engine (.err 2) :: []) := by decide

/-- LinkAppendsAnyByte: in IDLE, in a call with a request waiting, in IDLE with one. -/
theorem witness_LinkAppendsAnyByte :
    (let s := facing [.append 0x55] { framed with requests := [0x103D000000000000] }
     s.agenda = .append 0x55 :: [] ∧ s.fsm = .idle ∧ s.BuffersWf) ∧
    ∀ s ∈ [facing [.append 0x55] start, facing [.append 0x55] { sending with requests := [0xC000000000000000] }],
      s.agenda = .append 0x55 :: [] ∧ (s.fsm ≠ .idle ∨ s.requests = []) := by decide

/-- SendFlushesAndWrites: a write that succeeds, and write errors at the last attempt but one and at the last. -/
theorem witness_SendFlushesAndWrites :
    (let s := facing [.engine .ok] sending
     s.Inv ∧ s.fsm = .send ∧ s.agenda = .engine .ok :: []) ∧
    (let s := facing [.engine (.err 2)] { sending with att := 1 }
     s.Inv ∧ s.fsm = .send ∧ s.agenda = .engine (.err 2) :: [] ∧ s.att.toNat + 1 < s.cfg.maxAttempts) ∧
    (let s := facing [.engine (.err 0)] { sending with att := 2 }
     s.Inv ∧ s.fsm = .send ∧ s.agenda = .engine (.err 0) :: [] ∧ s.att.toNat + 1 = s.cfg.maxAttempts) := by decide

/-- AttemptFailureRetriesOrEnds: two attempts made, and three. -/
theorem witness_AttemptFailureRetriesOrEnds :
    { sending with att := 2 }.att.toNat < sending.cfg.maxAttempts ∧
    sending.cfg.maxAttempts ≤ { sending with att := 3 }.att.toNat := by decide

/-- RxByteFiltersAndCollects: discard, accept, end the call, start over. -/
theorem witness_RxByteFiltersAndCollects :
    (let s := facing [.engine .ok] (receiving 3 [0x55])
     s.Inv ∧ s.fsm = .sync ∧ s.rxq = 0x55 :: [] ∧ s.rxcnt = 0#4 ∧ 0x55#8 ≠ s.addr) ∧
    (let s := facing [.engine .ok] (receiving 3 [0xE0])
     s.Inv ∧ s.fsm = .sync ∧ s.rxq = 0xE0 :: [] ∧ 0xE0#8 = s.addr ∧ s.rxcnt.toNat + 1 < s.rxlen.toNat) ∧
    (let s := facing [.engine .ok] (collecting [0xE1])
     s.Inv ∧ s.fsm = .accum ∧ s.rxq = 0xE1 :: [] ∧ s.rxcnt ≠ 0#4 ∧ s.rxcnt.toNat + 1 = s.rxlen.toNat ∧
     FrameOk (s.rxbuf.set s.rxcnt.toNat 0xE1) s.rxlen.toNat) ∧
    (let s := facing [.engine .ok] (collecting [0x1E])
     s.Inv ∧ s.fsm = .accum ∧ s.rxq = 0x1E :: [] ∧ s.rxcnt ≠ 0#4 ∧ s.rxcnt.toNat + 1 = s.rxlen.toNat ∧
     ¬ FrameOk (s.rxbuf.set s.rxcnt.toNat 0x1E) s.rxlen.toNat) := by decide

/-- TickCountsAndTimesOut: IDLE, SEND, the last tick that only counts, a timeout with attempts left, the last one. -/
theorem witness_TickCountsAndTimesOut :
    (∀ s ∈ [facing [.tick] start, facing [.tick] sending],
      s.Inv ∧ s.agenda = .tick :: [] ∧ (s.fsm ≠ .idle ∨ s.requests = []) ∧ (s.fsm = .idle ∨ s.fsm = .send)) ∧
    (let s := facing [.tick] { receiving 3 [] with timer := 2999 }
     s.Inv ∧ s.fsm = .sync ∧ s.rxq = [] ∧ s.timer.toNat + 1 ≤ s.cfg.timeoutTicks) ∧
    (let s := facing [.tick] { collecting [] with timer := 3000, att := 2 }
     s.Inv ∧ s.fsm = .accum ∧ s.rxq = [] ∧ s.cfg.timeoutTicks < s.timer.toNat + 1 ∧
     s.att.toNat < s.cfg.maxAttempts) ∧
    (let s := facing [.tick] { receiving 3 [] with timer := 3000, att := 3 }
     s.Inv ∧ s.fsm = .sync ∧ s.rxq = [] ∧ s.cfg.timeoutTicks < s.timer.toNat + 1 ∧
     s.att.toNat = s.cfg.maxAttempts) := by decide

/-- BytesBeforeTime: 2.11, three bytes before a tick. -/
theorem witness_BytesBeforeTime :
    let s := facing [.tick] { receiving 3 [0x55, 0xE0, 0x01] with timer := 3000 }
    s.Inv ∧ (s.fsm = .sync ∨ s.fsm = .accum) ∧ s.agenda = .tick :: [] := by decide

/-- SendIsABarrier. -/
theorem witness_SendIsABarrier :
    let s := facing [.engine .ok] { sending with rxq := [0xE0, 0x01, 0xE1] }
    s.fsm = .send ∧ s.agenda = .engine .ok :: [] := by decide

/-- A state that meets the invariant, whose next move is not the reset input, and whose step changes FSM to `f`. -/
def moves (s : State) (f : Fsm) : Prop :=
  s.Inv ∧ s.fsm ≠ f ∧ (∀ queued, s.nextMove ≠ .reset queued) ∧ goesOn (step s) (fun t => t.fsm == f) = true

/-- FsmChangesOnlyByTheTable: each of R165's rows. -/
theorem witness_FsmChangesOnlyByTheTable :
    moves (facing [.tick] { framed with requests := [0x5300000000000000] }) .send ∧
    moves (facing [.engine .ok] sending) .sync ∧
    moves (facing [.engine (.err 1)] { sending with att := 2 }) .idle ∧
    moves (facing [.engine .ok] (receiving 3 [0xE0])) .accum ∧
    moves (facing [.engine .ok] (collecting [0xE1])) .idle ∧
    moves (facing [.engine .ok] (collecting [0x1E])) .sync ∧
    moves (facing [.tick] { collecting [] with timer := 3000 }) .send ∧
    moves (facing [.tick] { receiving 3 [] with timer := 3000, att := 3 }) .idle := by
  refine ⟨?_, ?_, ?_, ?_, ?_, ?_, ?_, ?_⟩ <;>
    exact ⟨by decide, by decide, fun _ h => Move.noConfusion h, by decide⟩

/-- EndOfCallIsSuccessOrFailure: success, write error, timeout. -/
theorem witness_EndOfCallIsSuccessOrFailure :
    moves (facing [.engine .ok] (collecting [0xE1])) .idle ∧
    moves (facing [.engine (.err 1)] { sending with att := 2 }) .idle ∧
    moves (facing [.tick] { receiving 3 [] with timer := 3000, att := 3 }) .idle :=
  ⟨witness_FsmChangesOnlyByTheTable.2.2.2.2.1, witness_FsmChangesOnlyByTheTable.2.2.1,
    witness_FsmChangesOnlyByTheTable.2.2.2.2.2.2.2⟩

/-- StepKeepsInvariant and MachineNeverStops: in each state of the engine, and after a call. -/
theorem witness_StepKeepsInvariant :
    ∀ s ∈ [start, framed, facing [.engine .ok] sending, facing [.engine .ok] (receiving 3 [0xE0]),
        facing [.engine .ok] (collecting [0xE1]), answered [0xE0, 0x01, 0xE1]],
      s.Inv ∧ goesOn (step (facing [.engine .ok] s)) (fun _ => true) = true := by decide

/-- InvariantHoldsAfterReset: parameters with other values, the least and the greatest. -/
theorem witness_InvariantHoldsAfterReset :
    { Params.default with
      timeoutMs := 65534, maxAttempts := 15, maxFrame := 15, minRxLen := 15, addrReset := 0x00 }.Legal ∧
    { Params.default with timeoutMs := 1, maxAttempts := 1, rxPerTick := 1 }.Legal := by
  unfold Params.Legal; decide

/-- RxcntWithinRxlenOutsideSend: log 10's XFER, and the SEND after it. -/
theorem witness_RxcntWithinRxlenOutsideSend :
    let ended := answered [0xE0, 0x00, 0x00, 0x00, 0x02, 0x00, 0x64, 0x46]
    let s := { ended with requests := [0x5300000000000000] }
    let t := facing [.engine .ok] { ended with rxlen := 3, att := 0, res := .none, fsm := .send }
    (s.Inv ∧ s.fsm ≠ .send ∧ s.rxcnt.toNat ≤ s.rxlen.toNat ∧ s.rxcnt.toNat ≤ s.cfg.maxFrame ∧
     goesOn (step s) (fun _ => true) = true) ∧
    (t.Inv ∧ t.fsm = .send ∧ t.agenda = .engine .ok :: [] ∧ t.rxlen.toNat < t.rxcnt.toNat ∧
     t.rxcnt.toNat ≤ t.cfg.maxFrame ∧
     goesOn (step t) (fun u => u.fsm != .send) = true) := by decide

/-- AddrChangesOnlyBySetaddr: SETADDR 0xE1, and reset after it. -/
theorem witness_AddrChangesOnlyBySetaddr :
    goesOn (step { start with requests := [0x6000E10000000000] }) (fun t => t.addr != start.addr) = true ∧
    goesOn (step (facing [.reset []] { start with addr := 0xE1 })) (fun t => t.addr != 0xE1) = true := by decide

/-- SentBytesOnlyGrowAndAreNotRead: a SEND that puts two bytes on the link. -/
theorem witness_SentBytesOnlyGrowAndAreNotRead :
    moves (facing [.engine .ok] sending) .sync ∧
    goesOn (step (facing [.engine (.err 2)] sending)) (fun t => t.txs == [0xE0, 0x3D]) = true :=
  ⟨witness_FsmChangesOnlyByTheTable.2.1, by decide⟩

/-- AccessMatrix: each of its four clauses with a next state. -/
theorem witness_AccessMatrix :
    goesOn (exec (.xfer 3) framed) (fun t => t.fsm == .send) = true ∧
    goesOn (sendStep (.err 2) sending) (fun t => t.att == 1) = true ∧
    goesOn (rxByteStep (collecting [0xE1])) (fun t => t.res == .ok) = true ∧
    (tickStep (receiving 3 [])).timer = 8 := by decide

/-- `sending` with a timeout of one tick. -/
def quickCall : State := { sending with cfg := quick }

/-- WriteErrorsAndSilenceEndTheCall: a write error, a timeout and a last write error, and three timeouts (P3). -/
theorem witness_WriteErrorsAndSilenceEndTheCall :
    quickCall.Inv ∧ quickCall.fsm = .send ∧ quickCall.att = 0#4 ∧
    [some 2, none].length + 1 = quickCall.cfg.maxAttempts ∧
    (∀ last ∈ [some 0, none],
      let s := facing (([some 2, none] ++ [last]).flatMap (failingAttempt quick) ++ [.tick]) quickCall
      s.agenda = ([some 2, none] ++ [last]).flatMap (failingAttempt s.cfg) ++ [.tick]) := by decide

/-- Three attempts with noise, a partial frame and a mismatched frame, each until the timeout. -/
def spoiledAttempts : List Move :=
  [.engine .ok, .append 0x55, .engine .ok, .tick, .tick,
   .engine .ok, .append 0xE0, .engine .ok, .tick, .tick,
   .engine .ok, .append 0xE0, .append 0x01, .append 0x1E, .engine .ok, .engine .ok, .engine .ok, .tick, .tick]

/-- CallFailsExactlyWhenAllAttemptsFail: one step before the third failure, after it, and a call that succeeds. -/
theorem witness_CallFailsExactlyWhenAllAttemptsFail :
    (let s := facing spoiledAttempts quickCall
     s.Inv ∧ s.fsm = .send ∧ s.att = 0#4 ∧ staysInCall 19 s = true ∧
     (stepsFrom 18 s).map State.fsm = some .sync ∧ countSteps State.failsAttempt 18 s = 2 ∧
     (stepsFrom 19 s).map State.res = some .errTimeout ∧ countSteps State.failsAttempt 19 s = 3 ∧
     countSteps State.sends 19 s = 3) ∧
    (let s := facing (.engine (.err 0) :: .engine .ok :: arrivals [(0, 0xE0), (0, 0x01), (0, 0xE1)]) quickCall
     s.Inv ∧ s.fsm = .send ∧ s.att = 0#4 ∧ staysInCall 8 s = true ∧
     (stepsFrom 8 s).map State.res = some .ok ∧ countSteps State.failsAttempt 8 s = 1) := by decide

/-- SilentCallLastsExactly, P3 with a timeout of one tick. -/
theorem witness_SilentCallLastsExactly :
    let s := facing
      [.engine .ok, .tick, .tick, .engine .ok, .tick, .tick, .engine .ok, .tick, .tick, .append 0xE0] quickCall
    s.Inv ∧ s.fsm = .send ∧ s.att = 0#4 ∧
    s.agenda = (List.replicate s.cfg.maxAttempts none).flatMap (failingAttempt s.cfg) ++ [.append 0xE0] := by decide

/-- NoiseThenFrameSucceeds: noise, then a frame whose gaps use the whole timeout. -/
theorem witness_NoiseThenFrameSucceeds :
    let noise : List (Nat × Byte) := [(0, 0x00), (0, 0x13)]
    let frame : List (Nat × Byte) := [(1, 0xE0), (1, 0x01), (1, 0xE1)]
    let s := facing (arrivals (noise ++ frame) ++ [])
      { quickCall with fsm := .sync, att := 1, acc := 0 }
    s.Inv ∧ s.fsm = .sync ∧ s.rxq = [] ∧ s.timer = 0#16 ∧ (∀ x ∈ noise, x.2 ≠ s.addr) ∧
    frame.length = s.rxlen.toNat ∧ byteAt (frame.map Prod.snd) 0 = s.addr ∧
    FrameOk (frame.map Prod.snd) s.rxlen.toNat ∧
    (noise.map Prod.fst).sum + (frame.map Prod.fst).headD 0 ≤ s.cfg.timeoutTicks ∧
    (∀ x ∈ frame.tail, x.1 ≤ s.cfg.timeoutTicks) ∧ s.agenda = arrivals (noise ++ frame) ++ [] := by decide

/-- AddressStreamNeverEndsCall: the longest expected length, the longest gap. -/
theorem witness_AddressStreamNeverEndsCall :
    let s := facing (arrivals (List.replicate 9 (1, 0xE0#8)) ++ [])
      { quickCall with fsm := .sync, att := 1, acc := 0, rxlen := 8 }
    s.Inv ∧ s.fsm = .sync ∧ s.rxq = [] ∧ s.timer = 0#16 ∧ s.addr = 0xE0#8 ∧ s.rxlen.toNat ≤ 8 ∧
    1 ≤ s.cfg.timeoutTicks ∧ s.agenda = arrivals (List.replicate 9 (1, 0xE0#8)) ++ [] := by decide

/-- What a typed call and its device's answer need of a state. -/
def ready (c : TypedCall) (answer : List Byte) (s : State) : Prop :=
  s.Inv ∧ s.cfg.minRxLen = 3 ∧ s.fsm = .idle ∧ s.requests = c.requests ++ [] ∧
  s.agenda = .engine .ok :: arrivals (answer.map fun b => (0, b)) ++ []

/-- `start` with stale bytes queued, a typed call presented and an answer on its way. -/
def calling (c : TypedCall) (answer : List Byte) : State :=
  facing (.engine .ok :: arrivals (answer.map fun b => (0, b)) ++ [])
    { start with requests := c.requests, rxq := [0x55, 0xAA] }

/-- TypedCallDeliversTheAnswer: a status (P1), and the least value of each signed result. -/
theorem witness_TypedCallDeliversTheAnswer :
    ready (.callS 0x3D) (frameStatus 0xE0 0x01) (calling (.callS 0x3D) (frameStatus 0xE0 0x01)) ∧
    ready (.callI16 0x39) (frameI16 0xE0 (-32768)) (calling (.callI16 0x39) (frameI16 0xE0 (-32768))) ∧
    ready (.callI32 0x39) (frameI32 0xE0 (-2147483648)) (calling (.callI32 0x39) (frameI32 0xE0 (-2147483648))) ∧
    ready (.callPos 0x30) (framePos64 0xE0 (-140737488355328))
      (calling (.callPos 0x30) (framePos64 0xE0 (-140737488355328))) := by
  unfold ready; decide

end Sys2Proof.Tests
end

section
/-! SUPPORT. What hardware reset leaves in each field of State (R45), and the statement about it. -/

namespace Sys2Proof.Config

/-! ### The default parameters reset reads (R9) -/

@[simp] theorem Params.default_addrReset : Params.default.addrReset = 0xE0#8 := rfl
@[simp] theorem Params.default_maxFrame : Params.default.maxFrame = 8 := rfl

end Sys2Proof.Config

namespace Sys2Proof.Machine

open Sys2Proof.Config

/-! ### initial: one lemma per field -/

section
variable (p : Params) (queued : List Byte)

@[simp] theorem State.initial_addr : (State.initial p queued).addr = p.addrReset := rfl
@[simp] theorem State.initial_txbuf : (State.initial p queued).txbuf = List.replicate p.maxFrame 0#8 := rfl
@[simp] theorem State.initial_txlen : (State.initial p queued).txlen = 0#4 := rfl
@[simp] theorem State.initial_rxbuf : (State.initial p queued).rxbuf = List.replicate p.maxFrame 0#8 := rfl
@[simp] theorem State.initial_rxcnt : (State.initial p queued).rxcnt = 0#4 := rfl
@[simp] theorem State.initial_rxlen : (State.initial p queued).rxlen = 0#4 := rfl
@[simp] theorem State.initial_acc : (State.initial p queued).acc = 0#8 := rfl
@[simp] theorem State.initial_timer : (State.initial p queued).timer = 0#16 := rfl
@[simp] theorem State.initial_att : (State.initial p queued).att = 0#4 := rfl
@[simp] theorem State.initial_fsm : (State.initial p queued).fsm = .idle := rfl
@[simp] theorem State.initial_res : (State.initial p queued).res = .none := rfl
@[simp] theorem State.initial_rdata : (State.initial p queued).rdata = 0#64 := rfl
@[simp] theorem State.initial_rvalid : (State.initial p queued).rvalid = false := rfl
@[simp] theorem State.initial_rxq : (State.initial p queued).rxq = queued := rfl
@[simp] theorem State.initial_txs : (State.initial p queued).txs = [] := rfl
@[simp] theorem State.initial_ack : (State.initial p queued).ack = Option.none := rfl
@[simp] theorem State.initial_requests : (State.initial p queued).requests = [] := rfl
@[simp] theorem State.initial_agenda : (State.initial p queued).agenda = [] := rfl
@[simp] theorem State.initial_drawn : (State.initial p queued).drawn = 0 := rfl
@[simp] theorem State.initial_cfg : (State.initial p queued).cfg = p := rfl

end

/-! ### reset: initial at the default parameters (R6 to R9) -/

/-- The opaque content of RXQ after reset (R35, U8) enters only as `initial`'s argument. -/
theorem State.reset_eq_initial : State.reset = State.initial Params.default rxqAtReset := rfl

/-! ### The statement -/

/-- Settles O1: every register by its field lemma; a buffer is `P_MAX_FRAME` copies of 0x00, which gives both its length
and each of its bytes. -/
theorem resetValues : Obligations.ResetValues := by
  unfold Obligations.ResetValues
  refine ⟨fun p queued => ?registers, ⟨rxqAtReset, State.reset_eq_initial⟩, ?addr, ?txbuf, ?rxbuf⟩
  case registers =>
    have cleared : ∀ b ∈ List.replicate p.maxFrame 0#8, b = 0#8 := fun _ => List.eq_of_mem_replicate
    exact ⟨State.initial_addr p queued, List.length_replicate, cleared, State.initial_txlen p queued,
      List.length_replicate, cleared, by simp⟩
  case addr => rw [State.reset_eq_initial, State.initial_addr, Params.default_addrReset]
  case txbuf => rw [State.reset_eq_initial, State.initial_txbuf, List.length_replicate, Params.default_maxFrame]
  case rxbuf => rw [State.reset_eq_initial, State.initial_rxbuf, List.length_replicate, Params.default_maxFrame]

end Sys2Proof.Machine
end

section
/-! SUPPORT. What the checksum operations CSUM_CLR and CSUM_ADD do in IDLE (R122, R123), and the statements about
them. -/

namespace Sys2Proof.Machine

/-! ### STATUS shows neither ACC nor the acknowledge (R34) -/

@[simp] theorem State.accClear_status (s : State) : s.accClear.status = s.status := rfl
@[simp] theorem State.accAdd_status (s : State) (b : Byte) : (s.accAdd b).status = s.status := rfl
@[simp] theorem State.acknowledge_status (s : State) (a : Ack) : (s.acknowledge a).status = s.status := rfl

/-! ### The operations once taken -/

theorem exec_csumClr_idle (s : State) (h : s.fsm = .idle) :
    exec .csumClr s = .next (s.accClear.acknowledge .accepted) := by
  rw [exec, execCsumClr, hostOp_idle s _ h]

theorem exec_csumAdd_idle (v8 : Byte) (s : State) (h : s.fsm = .idle) :
    exec (.csumAdd v8) s = .next ((s.accAdd v8).acknowledge .accepted) := by
  rw [exec, execCsumAdd, hostOp_idle s _ h]

/-- ACC's addition of bytes is the sum on naturals modulo 256, with no carry kept (R27, R121 (a)). -/
theorem State.accAdd_eq_mod (s : State) (b : Byte) :
    s.accAdd b = { s with acc := BitVec.ofNat 8 ((s.acc.toNat + b.toNat) % 256) } := by
  have hsum : s.acc + b = BitVec.ofNat 8 ((s.acc.toNat + b.toNat) % 256) := by
    apply BitVec.eq_of_toNat_eq
    simp [BitVec.toNat_add]
  rw [State.accAdd, hsum]

/-! ### The statements -/

/-- Settles O10: in IDLE the operation is ACC's clear and the acknowledge, and STATUS reads neither. -/
theorem csumClrClears : Obligations.CsumClrClears := by
  unfold Obligations.CsumClrClears
  refine ⟨?word, fun s hidle => ⟨?effect, ?status⟩⟩
  case word => decide
  case effect => exact exec_csumClr_idle s hidle
  case status => exact (s.accClear.acknowledge_status .accepted).trans s.accClear_status

/-- Settles O11: the fields are read back from the word they make; in IDLE the operation is ACC's addition and the
acknowledge, and STATUS reads neither. -/
theorem csumAddAdds : Obligations.CsumAddAdds := by
  unfold Obligations.CsumAddAdds
  refine fun v8 s => ⟨?fields, fun hidle => ⟨?effect, ?status⟩⟩
  case fields => exact Fields.ofWord_toWord (Instr.csumAdd v8).fields
  case effect =>
    rw [exec_csumAdd_idle v8 s hidle, State.accAdd_eq_mod]
    rfl
  case status => exact ((s.accAdd v8).acknowledge_status .accepted).trans (s.accAdd_status v8)

end Sys2Proof.Machine
end

section
/-! SUPPORT. What the four ENC operations leave in IDLE (R130 to R134), and the statements about them. -/

namespace Sys2Proof.Laws.RowSelects

/-! ### An operation's row of R101's table -/

theorem opcodeTable_mnemonic_injective :
    ∀ r ∈ opcodeTable, ∀ q ∈ opcodeTable, r.mnemonic = q.mnemonic → r = q := by decide

/-- The row that selects an operation's descriptor is the one row of the table with the operation's name. -/
theorem selects_of_mnemonic {i : Instr} (h : Statement i) (r : Row) (hr : r ∈ opcodeTable)
    (hn : r.mnemonic = i.mnemonic) : r.Selects (encode i) := by
  obtain ⟨q, hq, hqn, hsel⟩ := h
  rwa [opcodeTable_mnemonic_injective r hr q hq (hn.trans hqn.symm)]

end Sys2Proof.Laws.RowSelects

namespace Sys2Proof.Machine

/-! ### A frame's sum and a word's bytes -/

/-- The checksum of a nonempty body, added up from its first byte on. -/
theorem checksum_cons_eq_foldl (b : Byte) (rest : List Byte) :
    checksum (b :: rest) (b :: rest).length = rest.foldl (· + ·) b := by
  rw [← BitVec.zero_add (checksum _ _), ← foldl_add_eq_checksum, List.foldl_cons, BitVec.zero_add]

/-- V32[15:8] and V32[7:0] are the bytes the word is made of (R133). -/
theorem bodyP16_append (addr cmd hi lo : Byte) : bodyP16 addr cmd (hi ++ lo) = [addr, cmd, hi, lo] := by
  have hhi : (hi ++ lo).extractLsb' 8 8 = hi := BitVec.extractLsb'_append_eq_left
  have hlo : (hi ++ lo).extractLsb' 0 8 = lo := BitVec.extractLsb'_append_eq_right
  rw [bodyP16, hhi, hlo]

/-- The four bytes of V32 are the bytes the word is made of (R134). -/
theorem bodyP8P32_append (addr cmd v8 b3 b2 b1 b0 : Byte) :
    bodyP8P32 addr cmd v8 (b3 ++ b2 ++ b1 ++ b0) = [addr, cmd, v8, b3, b2, b1, b0] := by
  have h3 : (b3 ++ b2 ++ b1 ++ b0).extractLsb' 24 8 = b3 := by ext k hk; grind
  have h2 : (b3 ++ b2 ++ b1 ++ b0).extractLsb' 16 8 = b2 := by ext k hk; grind
  have h1 : (b3 ++ b2 ++ b1 ++ b0).extractLsb' 8 8 = b1 := by ext k hk; grind
  have h0 : (b3 ++ b2 ++ b1 ++ b0).extractLsb' 0 8 = b0 := BitVec.extractLsb'_append_eq_right
  rw [bodyP8P32, h3, h2, h1, h0]

/-! ### The state an ENC operation leaves -/

/-- `s` with the frame of these operand bytes encoded: ADDR, the operand bytes, and their sum, in TXBUF from index 0,
with TXLEN, ACC and the acknowledge that go with it (R130). -/
def State.encoded (operands : List Byte) (s : State) : State :=
  let sum := operands.foldl (· + ·) s.addr
  { s with
    txbuf := s.addr :: operands ++ [sum] ++ s.txbuf.drop (operands.length + 2)
    txlen := BitVec.ofNat 4 (operands.length + 2)
    acc := sum
    ack := some .accepted }

/-- STATUS shows nothing that encoding changes (R34). -/
@[simp] theorem State.encoded_status (s : State) (operands : List Byte) : (s.encoded operands).status = s.status := rfl

/-- In every state of the required form TXBUF holds the longest frame, 8 bytes (R9, R22), so encoding one completes. -/
theorem encodeFrame_eq_encoded (s : State) (operands : List Byte) (hwf : s.BuffersWf) (hlen : operands.length ≤ 6) :
    encodeFrame (s.addr :: operands) s = .next (s.encoded operands) := by
  obtain ⟨⟨_, _, _, _, _, _, hcapacity, _⟩, htx, _⟩ := hwf
  obtain ⟨_, hnext⟩ | ⟨hshort, _⟩ := encodeFrame_cases (s.addr :: operands) s
  · rw [hnext, checksum_cons_eq_foldl]
    rfl
  · rw [List.length_cons] at hshort
    omega

section
variable {s : State} (hidle : s.fsm = .idle) (hwf : s.BuffersWf)
include hidle hwf

theorem exec_encS_idle (cmd : Byte) : exec (.encS cmd) s = .next (s.encoded [cmd]) := by
  rw [exec, execEncS, hostOp_idle s _ hidle]
  exact encodeFrame_eq_encoded s _ hwf (by simp)

theorem exec_encP8_idle (cmd v8 : Byte) : exec (.encP8 cmd v8) s = .next (s.encoded [cmd, v8]) := by
  rw [exec, execEncP8, hostOp_idle s _ hidle]
  exact encodeFrame_eq_encoded s _ hwf (by simp)

theorem exec_encP16_idle (cmd hi lo : Byte) :
    exec (.encP16 cmd (hi ++ lo)) s = .next (s.encoded [cmd, hi, lo]) := by
  rw [exec, execEncP16, hostOp_idle s _ hidle, bodyP16_append]
  exact encodeFrame_eq_encoded s _ hwf (by simp)

theorem exec_encP8P32_idle (cmd v8 b3 b2 b1 b0 : Byte) :
    exec (.encP8P32 cmd v8 (b3 ++ b2 ++ b1 ++ b0)) s = .next (s.encoded [cmd, v8, b3, b2, b1, b0]) := by
  rw [exec, execEncP8P32, hostOp_idle s _ hidle, bodyP8P32_append]
  exact encodeFrame_eq_encoded s _ hwf (by simp)

end

/-! ### The statements -/

open Sys2Proof.Laws

/-- Settles O5: the fields are read back from the word they make, the match and mask are those of the operation's row,
and in IDLE the state left is the encoded one. -/
theorem encSBuildsFrame : Obligations.EncSBuildsFrame := by
  unfold Obligations.EncSBuildsFrame
  refine fun cmd s => ⟨?fields, ?selected, fun hidle hwf => ⟨?effect, ?status⟩⟩
  case fields => exact Fields.ofWord_toWord (Instr.encS cmd).fields
  case selected =>
    exact RowSelects.selects_of_mnemonic (RowSelects.encS cmd)
      ⟨"ENC_S", 0x1000000000000000#64, 0xFF00FFFFFFFFFFFF#64⟩ (by decide) rfl
  case effect => exact exec_encS_idle hidle hwf cmd
  case status => exact s.encoded_status [cmd]

/-- Settles O6, as O5, with one payload byte. -/
theorem encP8BuildsFrame : Obligations.EncP8BuildsFrame := by
  unfold Obligations.EncP8BuildsFrame
  refine fun cmd v8 s => ⟨?fields, ?selected, fun hidle hwf => ⟨?effect, ?status⟩⟩
  case fields => exact Fields.ofWord_toWord (Instr.encP8 cmd v8).fields
  case selected =>
    exact RowSelects.selects_of_mnemonic (RowSelects.encP8 cmd v8)
      ⟨"ENC_P8", 0x2000000000000000#64, 0xFF0000FFFFFFFFFF#64⟩ (by decide) rfl
  case effect => exact exec_encP8_idle hidle hwf cmd v8
  case status => exact s.encoded_status [cmd, v8]

/-- Settles O7, as O5, with the operand's two bytes, high byte first. -/
theorem encP16BuildsFrame : Obligations.EncP16BuildsFrame := by
  unfold Obligations.EncP16BuildsFrame
  refine fun cmd hi lo s => ⟨?fields, ?selected, fun hidle hwf => ⟨?effect, ?status⟩⟩
  case fields => exact Fields.ofWord_toWord (Instr.encP16 cmd (hi ++ lo)).fields
  case selected =>
    exact RowSelects.selects_of_mnemonic (RowSelects.encP16 cmd (hi ++ lo))
      ⟨"ENC_P16", 0x3000000000000000#64, 0xFF00FFFFFFFF0000#64⟩ (by decide) rfl
  case effect => exact exec_encP16_idle hidle hwf cmd hi lo
  case status => exact s.encoded_status [cmd, hi, lo]

/-- Settles O8, as O5, with V8 and the four bytes of V32, most significant byte first. -/
theorem encP8P32BuildsFrame : Obligations.EncP8P32BuildsFrame := by
  unfold Obligations.EncP8P32BuildsFrame
  refine fun cmd v8 b3 b2 b1 b0 s => ⟨?fields, ?selected, fun hidle hwf => ⟨?effect, ?status⟩⟩
  case fields => exact Fields.ofWord_toWord (Instr.encP8P32 cmd v8 (b3 ++ b2 ++ b1 ++ b0)).fields
  case selected =>
    exact RowSelects.selects_of_mnemonic (RowSelects.encP8P32 cmd v8 (b3 ++ b2 ++ b1 ++ b0))
      ⟨"ENC_P8P32", 0x4000000000000000#64, 0xFF0000FF00000000#64⟩ (by decide) rfl
  case effect => exact exec_encP8P32_idle hidle hwf cmd v8 b3 b2 b1 b0
  case status => exact s.encoded_status [cmd, v8, b3, b2, b1, b0]

end Sys2Proof.Machine
end

section
/-! SUPPORT. What a DEC operation delivers once a validated frame is long enough for it (R140, R141), and the statement
about DEC_STATUS. -/

namespace Sys2Proof.Machine

/-! ### The validated frame -/

/-- A validated frame has at least the least legal length, because RXLEN is 0 only before any XFER (R26, R38 (f)). -/
theorem State.Inv.minRxLen_le_rxlen_of_ok {s : State} (hinv : s.Inv) (hok : s.res = .ok) :
    s.cfg.minRxLen ≤ s.rxlen.toNat := by
  obtain ⟨_, _, _, _, _, _, hlen, hframe, _, _⟩ := hinv
  obtain ⟨_, _, hnonzero, _⟩ := hframe hok
  obtain hzero | ⟨hmin, _⟩ := hlen
  · exact absurd hzero hnonzero
  · exact hmin

/-! ### A DEC operation that delivers -/

/-- With a validated frame long enough for the value, and RXBUF as long, a DEC operation delivers it (R140). -/
theorem decodeFrame_delivers {need : Nat} (value : List Byte → BitVec 64) {s : State} (hok : s.res = .ok)
    (hlen : need ≤ s.rxlen.toNat) (hbuf : need ≤ s.rxbuf.length) :
    decodeFrame need value s = .next (s.deliver (value s.rxbuf) true) := by
  obtain ⟨hres, _⟩ | ⟨_, hshort, _⟩ | ⟨_, _, hshort, _⟩ | ⟨_, _, _, hnext⟩ := decodeFrame_cases need value s
  · exact absurd hok hres
  · omega
  · omega
  · exact hnext

theorem exec_decStatus_idle (s : State) (h : s.fsm = .idle) :
    exec .decStatus s = decodeFrame 3 valueStatus s := by
  rw [exec, execDecStatus, hostOp_idle s _ h]

/-- DEC_STATUS's value as the statement writes it: byte 1 zero-extended (R141). -/
theorem valueStatus_eq_zeroExtend (f : List Byte) : valueStatus f = (byteAt f 1).zeroExtend 64 :=
  BitVec.ofNat_toNat 64 (byteAt f 1)

/-! ### The statement -/

/-- Settles O17: the invariant makes RXLEN at least P_MIN_RXLEN and RXBUF P_MAX_FRAME bytes long, both at least 3, so the
operation is neither refused nor at fault. -/
theorem decStatusDeliversByteOne : Obligations.DecStatusDeliversByteOne := by
  unfold Obligations.DecStatusDeliversByteOne
  refine ⟨?word, fun s hinv hidle hok => ?effect⟩
  case word => decide
  case effect =>
    have hmin := hinv.minRxLen_le_rxlen_of_ok hok
    obtain ⟨⟨⟨_, _, _, _, _, _, hcapacity, _, hleast, _⟩, _, hrx⟩, _⟩ := hinv
    have hlen : 3 ≤ s.rxlen.toNat := hleast.trans hmin
    have hbuf : 3 ≤ s.rxbuf.length := by omega
    rw [exec_decStatus_idle s hidle, decodeFrame_delivers valueStatus hok hlen hbuf, valueStatus_eq_zeroExtend]
    rfl

end Sys2Proof.Machine
end

section
/-! SUPPORT. What XFER, SEND, RXBYTE and an attempt failure do in the states that meet the invariant of R38 (R150 to
R155), and the statements about them. -/

namespace Sys2Proof.Machine

/-! ### What the invariant gives the engine (R38) -/

/-- No legal TXLEN is beyond TXBUF: the longest frame has 8 bytes, the least capacity is 8 (R9, R23). -/
theorem State.Inv.txlen_le_txbuf_length {s : State} (hinv : s.Inv) : s.txlen.toNat ≤ s.txbuf.length := by
  obtain ⟨⟨⟨_, _, _, _, _, _, hcapacity, _⟩, htx, _⟩, ⟨hlegal, _⟩, _⟩ := hinv
  simp only [List.mem_cons, List.not_mem_nil, or_false] at hlegal
  omega

/-- SEND finds attempts left, and ATT counts the one it makes without wrapping (R7, R38 (e)). -/
theorem State.Inv.att_add_one_of_send {s : State} (hinv : s.Inv) (hsend : s.fsm = .send) :
    (s.att + 1#4).toNat = s.att.toNat + 1 := by
  obtain ⟨⟨⟨_, _, _, _, _, hmax, _⟩, _, _⟩, _, _, _, _, ⟨hleft, _⟩, _⟩ := hinv
  have hatt := hleft hsend
  rw [BitVec.toNat_add]
  exact Nat.mod_eq_of_lt (by simp only [BitVec.toNat_ofNat]; omega)

section
variable {s : State} (hinv : s.Inv) (hreceiving : s.fsm = .sync ∨ s.fsm = .accum)
include hinv hreceiving

/-- While receiving, the frame is not complete (R38 (b), (c), (d)). -/
theorem State.Inv.rxcnt_lt_rxlen : s.rxcnt.toNat < s.rxlen.toNat := by
  obtain ⟨⟨⟨_, _, _, _, _, _, _, _, hleast, _⟩, _, _⟩, _, hsync, haccum, hbusy, _⟩ := hinv
  obtain hfsm | hfsm := hreceiving
  · obtain ⟨hcnt, _⟩ := hsync hfsm
    obtain ⟨_, _, _, hmin, _⟩ := hbusy (by simp [hfsm])
    simp only [hcnt, BitVec.toNat_ofNat]
    omega
  · obtain ⟨hpos, hlast, _⟩ := haccum hfsm
    omega

/-- While receiving, RXBUF has room for one more byte. -/
theorem State.Inv.rxcnt_lt_rxbuf_length : s.rxcnt.toNat < s.rxbuf.length := by
  have hcnt := hinv.rxcnt_lt_rxlen hreceiving
  obtain ⟨⟨_, _, hrx⟩, _, _, _, hbusy, _⟩ := hinv
  obtain ⟨_, _, _, _, hmax⟩ := hbusy (by rcases hreceiving with h | h <;> simp [h])
  omega

/-- While receiving, ACC is the sum of the bytes accepted, none of them in SYNC (R38 (b), (c)). -/
theorem State.Inv.acc_eq_checksum : s.acc = checksum s.rxbuf s.rxcnt.toNat := by
  obtain ⟨_, _, hsync, haccum, _⟩ := hinv
  obtain hfsm | hfsm := hreceiving
  · obtain ⟨hcnt, hacc⟩ := hsync hfsm
    rw [hcnt, hacc]
    rfl
  · obtain ⟨_, _, _, hacc⟩ := haccum hfsm
    exact hacc

end

/-! ### The frame check on the byte just stored (R125) -/

/-- A byte stored at `n` completes a frame whose check holds exactly when it is the sum of the `n` bytes before it. -/
theorem frameOk_set_iff (f : List Byte) (n : Nat) (b : Byte) (h : n < f.length) :
    FrameOk (f.set n b) (n + 1) ↔ checksum f n = b := by
  have hbefore : checksum (f.set n b) n = checksum f n := checksum_congr _ _ _ (List.take_set_of_le le_rfl)
  rw [FrameOk, Nat.add_sub_cancel, byteAt_set_same f n b h, hbefore]
  exact eq_comm

/-- While receiving, comparing ACC with the last byte of the frame is the frame check (R155). -/
theorem State.Inv.frameOk_stored_iff {s : State} (hinv : s.Inv) (hreceiving : s.fsm = .sync ∨ s.fsm = .accum)
    (b : Byte) (hlast : s.rxcnt.toNat + 1 = s.rxlen.toNat) :
    FrameOk (s.rxbuf.set s.rxcnt.toNat b) s.rxlen.toNat ↔ s.acc = b := by
  rw [← hlast, hinv.acc_eq_checksum hreceiving]
  exact frameOk_set_iff _ _ b (hinv.rxcnt_lt_rxbuf_length hreceiving)

/-! ### Each outcome with its condition: attempt failure and XFER -/

theorem attemptFail_retries (cause : Cause) {s : State} (h : s.att.toNat < s.cfg.maxAttempts) :
    attemptFail cause s = { s with rxcnt := 0#4, acc := 0#8, fsm := .send } := by
  obtain ⟨_, he⟩ | ⟨hspent, _⟩ := attemptFail_cases cause s
  · exact he
  · omega

theorem attemptFail_ends (cause : Cause) {s : State} (h : s.cfg.maxAttempts ≤ s.att.toNat) :
    attemptFail cause s = { s with rxcnt := 0#4, acc := 0#8, res := cause.res, fsm := .idle } := by
  obtain ⟨hleft, _⟩ | ⟨_, he⟩ := attemptFail_cases cause s
  · omega
  · exact he

theorem exec_xfer_refused {len : BitVec 4} {s : State} (hidle : s.fsm = .idle)
    (hbad : s.txlen = 0#4 ∨ len.toNat < s.cfg.minRxLen ∨ s.cfg.maxFrame < len.toNat) :
    exec (.xfer len) s = .next (badReq s) := by
  rw [exec]
  obtain ⟨_, he⟩ | ⟨hframe, hmin, hmax, _⟩ := execXfer_cases len s hidle
  · exact he
  · obtain hnone | hlen := hbad
    · exact absurd hnone hframe
    · omega

theorem exec_xfer_starts {len : BitVec 4} {s : State} (hidle : s.fsm = .idle) (hframe : s.txlen ≠ 0#4)
    (hmin : s.cfg.minRxLen ≤ len.toNat) (hmax : len.toNat ≤ s.cfg.maxFrame) :
    exec (.xfer len) s = .next { s with
      rxlen := len, att := 0#4, res := .none, rvalid := false, fsm := .send, ack := some .accepted } := by
  rw [exec]
  obtain ⟨hnone | hlen, _⟩ | ⟨_, _, _, he⟩ := execXfer_cases len s hidle
  · exact absurd hnone hframe
  · omega
  · exact he

/-- A call that has just started reads as BUSY and nothing else (R34, R150). -/
theorem State.status_before_first_send {s : State} (hfsm : s.fsm = .send) (hres : s.res = .none)
    (hatt : s.att = 0#4) : s.status = 0x01#8 := by
  rw [State.status, State.synced, State.busy, State.ready, hfsm, hres, hatt]
  decide

/-! ### Each outcome with its condition: SEND and RXBYTE -/

section
variable {s : State} (hfits : s.txlen.toNat ≤ s.txbuf.length)
include hfits

theorem sendStep_ok : sendStep .ok s = .next { s with
    att := s.att + 1#4, rxq := [], rxcnt := 0#4, acc := 0#8, txs := s.txs ++ s.txFrame, timer := 0#16,
    fsm := .sync } := by
  obtain ⟨hshort, _⟩ | ⟨_, _, he⟩ | ⟨_, _, hanswer, _⟩ := sendStep_cases .ok s
  · omega
  · exact he
  · cases hanswer

theorem sendStep_err (k : Nat) : sendStep (.err k) s = .next (attemptFail .write { s with
    att := s.att + 1#4, rxq := [], rxcnt := 0#4, acc := 0#8, txs := s.txs ++ s.txFrame.take k }) := by
  obtain ⟨hshort, _⟩ | ⟨_, hanswer, _⟩ | ⟨_, _, hanswer, he⟩ := sendStep_cases (.err k) s
  · omega
  · cases hanswer
  · cases hanswer
    exact he

end

theorem rxByteStep_discards {b : Byte} {rest : List Byte} {s : State} (hq : s.rxq = b :: rest) (hcnt : s.rxcnt = 0#4)
    (hb : b ≠ s.addr) : rxByteStep s = .next { s with rxq := rest } := by
  obtain ⟨hempty, _⟩ | ⟨_, _, hq', _, _, he⟩ | ⟨_, _, hq', haccept, _⟩ := rxByteStep_cases s
  · simp [hq] at hempty
  · cases hq.symm.trans hq'
    exact he
  · cases hq.symm.trans hq'
    exact absurd hcnt (haccept.resolve_right hb)

theorem rxByteStep_accepts {b : Byte} {rest : List Byte} {s : State} (hq : s.rxq = b :: rest)
    (haccept : s.rxcnt ≠ 0#4 ∨ b = s.addr) : rxByteStep s = acceptByte b { s with rxq := rest } := by
  obtain ⟨hempty, _⟩ | ⟨_, _, hq', hcnt, hb, _⟩ | ⟨_, _, hq', _, he⟩ := rxByteStep_cases s
  · simp [hq] at hempty
  · cases hq.symm.trans hq'
    exact absurd hcnt (haccept.resolve_right hb)
  · cases hq.symm.trans hq'
    exact he

section
variable {b : Byte} {s : State} (hroom : s.rxcnt.toNat < s.rxbuf.length)
include hroom

theorem acceptByte_extends (hmore : s.rxcnt.toNat + 1 < s.rxlen.toNat) : acceptByte b s = .next { s with
    rxbuf := s.rxbuf.set s.rxcnt.toNat b, timer := 0#16, acc := s.acc + b, rxcnt := s.rxcnt + 1#4,
    fsm := .accum } := by
  obtain ⟨hfull, _⟩ | ⟨_, _, he⟩ | ⟨_, hlast, _⟩ | ⟨_, hlast, _⟩ := acceptByte_cases b s
  · omega
  · exact he
  · omega
  · omega

theorem acceptByte_completes (hlast : s.rxcnt.toNat + 1 = s.rxlen.toNat) (hsum : s.acc = b) :
    acceptByte b s = .next { s with
      rxbuf := s.rxbuf.set s.rxcnt.toNat b, timer := 0#16, rxcnt := s.rxlen, res := .ok, fsm := .idle } := by
  obtain ⟨hfull, _⟩ | ⟨_, hmore, _⟩ | ⟨_, _, _, he⟩ | ⟨_, _, hne, _⟩ := acceptByte_cases b s
  · omega
  · omega
  · exact he
  · exact absurd hsum hne

theorem acceptByte_startsOver (hlast : s.rxcnt.toNat + 1 = s.rxlen.toNat) (hsum : s.acc ≠ b) :
    acceptByte b s = .next { s with
      rxbuf := s.rxbuf.set s.rxcnt.toNat b, timer := 0#16, rxcnt := 0#4, acc := 0#8, fsm := .sync } := by
  obtain ⟨hfull, _⟩ | ⟨_, hmore, _⟩ | ⟨_, _, heq, _⟩ | ⟨_, _, _, he⟩ := acceptByte_cases b s
  · omega
  · omega
  · exact absurd heq hsum
  · exact he

end

/-! ### The engine's turn in a call (R151) -/

section
variable {s : State} {a : Config.WriteAnswer} {moves : List Config.Move} (hagenda : s.agenda = .engine a :: moves)
include hagenda

theorem step_engine (hbusy : s.fsm ≠ .idle) : step s = engineStep a { s with agenda := moves } := by
  rw [step, fetchRequest_busy s hbusy, environmentStep, s.nextMove_cons_agenda _ _ hagenda,
    s.dropMove_cons_agenda _ _ hagenda]

theorem step_engine_send (hsend : s.fsm = .send) : step s = sendStep a { s with agenda := moves } := by
  rw [step_engine hagenda (by simp [hsend]), engineStep]
  simp only [hsend]

theorem step_engine_receiving (hreceiving : s.fsm = .sync ∨ s.fsm = .accum) :
    step s = rxByteStep { s with agenda := moves } := by
  obtain hfsm | hfsm := hreceiving <;>
    rw [step_engine hagenda (by simp [hfsm]), engineStep] <;> simp only [hfsm]

end

/-! ### The statements -/

open Sys2Proof.Laws

/-- Settles O34: the frame is within TXBUF, so SEND writes; a write error is an attempt failure with the new ATT, which
still has attempts left or is the last one. -/
theorem sendFlushesAndWrites : Obligations.SendFlushesAndWrites := by
  unfold Obligations.SendFlushesAndWrites
  intro s a moves hinv hsend hagenda frame u
  have hfits := hinv.txlen_le_txbuf_length
  have hatt := hinv.att_add_one_of_send hsend
  have hstep := step_engine_send hagenda hsend
  have hfails : ∀ k, a = .err k →
      step s = .next (attemptFail .write { u with txs := s.txs ++ frame.take k }) := by
    rintro k rfl
    exact hstep.trans (sendStep_err (s := { s with agenda := moves }) hfits k)
  refine ⟨?ok, ?retry, ?last⟩
  case ok =>
    rintro rfl
    exact hstep.trans (sendStep_ok hfits)
  case retry =>
    intro k herr hleft
    rw [hfails k herr, attemptFail_retries .write (hatt.trans_lt hleft), ← hsend]
  case last =>
    intro k herr hspent
    rw [hfails k herr, attemptFail_ends .write (hatt.trans hspent).ge]
    rfl

/-- Settles O36: while receiving, RXBUF has room and ACC is the sum of what was accepted, so the last byte's test is the
frame check. -/
theorem rxByteFiltersAndCollects : Obligations.RxByteFiltersAndCollects := by
  unfold Obligations.RxByteFiltersAndCollects
  intro s a moves b queued hinv hreceiving hagenda hq stored u
  have hroom := hinv.rxcnt_lt_rxbuf_length hreceiving
  have hstep := step_engine_receiving hagenda hreceiving
  refine ⟨?discard, fun haccept => ?accept⟩
  case discard => exact fun hcnt hb => hstep.trans (rxByteStep_discards hq hcnt hb)
  case accept =>
    have hbyte : step s = acceptByte b u := hstep.trans (rxByteStep_accepts hq haccept)
    refine ⟨fun hmore => ?extend, fun hlast hcheck => ?complete, fun hlast hcheck => ?startOver⟩
    case extend => exact hbyte.trans (acceptByte_extends hroom hmore)
    case complete =>
      have hsum := (hinv.frameOk_stored_iff hreceiving b hlast).mp hcheck
      exact hbyte.trans (acceptByte_completes hroom hlast hsum)
    case startOver =>
      have hsum : s.acc ≠ b := mt (hinv.frameOk_stored_iff hreceiving b hlast).mpr hcheck
      exact hbyte.trans (acceptByte_startsOver hroom hlast hsum)

/-- Settles O15: the fields are read back from the word they make, the match and mask are those of the operation's row,
and the two cases are XFER's. -/
theorem xferStartsCallOrIsRefused : Obligations.XferStartsCallOrIsRefused := by
  unfold Obligations.XferStartsCallOrIsRefused
  refine fun len s => ⟨?fields, ?selected, fun hidle => ⟨?refused, fun hframe hmin hmax => ⟨?starts, ?status⟩⟩⟩
  case fields => exact Fields.ofWord_toWord (Instr.xfer len).fields
  case selected =>
    exact RowSelects.selects_of_mnemonic (RowSelects.xfer len)
      ⟨"XFER", 0x5000000000000000#64, 0xF0FFFFFFFFFFFFFF#64⟩ (by decide) rfl
  case refused => exact exec_xfer_refused hidle
  case starts => exact exec_xfer_starts hidle hframe hmin hmax
  case status => exact State.status_before_first_send rfl rfl rfl

/-- Settles O35: the two cases of an attempt failure, the second for each cause. -/
theorem attemptFailureRetriesOrEnds : Obligations.AttemptFailureRetriesOrEnds := by
  unfold Obligations.AttemptFailureRetriesOrEnds
  refine fun s => ⟨fun hleft cause => ?retry, fun hspent => ⟨?timeout, ?write⟩⟩
  case retry => exact attemptFail_retries cause hleft
  case timeout => exact attemptFail_ends .timeout hspent
  case write => exact attemptFail_ends .write hspent

end Sys2Proof.Machine
end

section
/-! SUPPORT. What SETADDR does in IDLE (R180), and the statement about it. -/

namespace Sys2Proof.Machine

/-! ### The operation once taken -/

/-- STATUS does not show ADDR (R34). -/
@[simp] theorem State.setAddr_status (s : State) (a : Byte) : { s with addr := a }.status = s.status := rfl

theorem exec_setaddr_idle (v8 : Byte) (s : State) (h : s.fsm = .idle) :
    exec (.setaddr v8) s = .next ({ s with addr := v8 }.acknowledge .accepted) := by
  rw [exec, execSetaddr, hostOp_idle s _ h]

/-! ### The statement -/

open Sys2Proof.Laws

/-- Settles O14: the fields are read back from the word they make, the match and mask are those of the operation's row,
and in IDLE the operation is the write of ADDR and the acknowledge, and STATUS reads neither. -/
theorem setaddrChangesOnlyAddr : Obligations.SetaddrChangesOnlyAddr := by
  unfold Obligations.SetaddrChangesOnlyAddr
  refine fun v8 s => ⟨?fields, ?selected, fun hidle => ⟨?effect, ?status⟩⟩
  case fields => exact Fields.ofWord_toWord (Instr.setaddr v8).fields
  case selected =>
    exact RowSelects.selects_of_mnemonic (RowSelects.setaddr v8)
      ⟨"SETADDR", 0x6000000000000000#64, 0xFFFF00FFFFFFFFFF#64⟩ (by decide) rfl
  case effect => exact exec_setaddr_idle v8 s hidle
  case status => exact ({ s with addr := v8 }.acknowledge_status .accepted).trans (s.setAddr_status v8)

end Sys2Proof.Machine
end

section
/-! SUPPORT. The decoder, the encoder and R101's table agree on every word and every operation (30_encoding.md Part B),
and the statements about the descriptors. -/

namespace Sys2Proof

open Sys2Proof.Laws

/-! ### The decoder inverts the encoder -/

theorem demand_eq_ok_iff (demands : List (Bool × Reject)) (i j : Instr) :
    demand demands i = .ok j ↔ (∀ d ∈ demands, d.1 = true) ∧ i = j := by
  induction demands with
  | nil => simp [demand]
  | cons d rest ih =>
    obtain ⟨met, why⟩ := d
    cases met with
    | false => simp [demand]
    | true => simp [demand, ih]

/-- The unused upper half of V32 and the operand below it (R133). -/
theorem extractLsb'_upper_zero_append (v : BitVec 16) : (0#16 ++ v).extractLsb' 16 16 = 0#16 :=
  BitVec.extractLsb'_append_eq_left

theorem extractLsb'_lower_zero_append (v : BitVec 16) : (0#16 ++ v).extractLsb' 0 16 = v :=
  BitVec.extractLsb'_append_eq_right

/-- A V32 with an empty upper half is its lower half after 16 zeros. -/
theorem zero_append_extractLsb' (v : BitVec 32) (h : v.extractLsb' 16 16 = 0#16) :
    0#16 ++ v.extractLsb' 0 16 = v := by
  rw [← h]
  ext k hk
  simp only [BitVec.getElem_append, BitVec.getElem_extractLsb']
  grind

theorem decodeFields_fields (i : Instr) : decodeFields i.fields = .ok i := by
  cases i with
  | encP16 cmd v16 =>
    simp [Instr.fields, decodeFields, demand_eq_ok_iff, extractLsb'_upper_zero_append, extractLsb'_lower_zero_append]
  | _ => simp [Instr.fields, decodeFields, demand_eq_ok_iff]

theorem decode_encode (i : Instr) : decode (encode i) = .ok i := by
  rw [decode, encode, Fields.ofWord_toWord, decodeFields_fields]

/-- What the decoder accepts has the fields of the operation it answers: OP is the operation's number, and every demand
on an unused field was met. -/
theorem fields_of_decodeFields {f : Fields} {i : Instr} (h : decodeFields f = .ok i) : i.fields = f := by
  obtain ⟨op, len, cmd, v8, rsv, v32⟩ := f
  have hop : op = BitVec.ofNat 4 op.toNat := by simp
  unfold decodeFields at h
  dsimp only at h
  split at h
  case h_3 heq =>
    rw [demand_eq_ok_iff] at h
    obtain ⟨hmet, rfl⟩ := h
    simp only [List.forall_mem_cons, beq_iff_eq] at hmet
    obtain ⟨hrsv, hlen, hv8, hv32, -⟩ := hmet
    rw [heq] at hop
    subst hrsv hlen hv8 hop
    simp [Instr.fields, zero_append_extractLsb' v32 hv32]
  case h_13 => cases h
  all_goals
    rename_i heq
    rw [demand_eq_ok_iff] at h
    obtain ⟨hmet, rfl⟩ := h
    simp only [List.forall_mem_cons, beq_iff_eq] at hmet
    rw [heq] at hop
    simp_all [Instr.fields]

theorem encode_of_decode {w : Desc} {i : Instr} (h : decode w = .ok i) : encode i = w := by
  rw [encode, fields_of_decodeFields h, Fields.toWord_ofWord]

/-! ### The table agrees with the encoder -/

/-- A row selects a word exactly when it does so field by field. -/
theorem Row.selects_toWord_iff (r : Row) (f : Fields) :
    r.Selects f.toWord ↔
      Fields.mk (f.op &&& (Fields.ofWord r.maskBits).op) (f.len &&& (Fields.ofWord r.maskBits).len)
        (f.cmd &&& (Fields.ofWord r.maskBits).cmd) (f.v8 &&& (Fields.ofWord r.maskBits).v8)
        (f.rsv &&& (Fields.ofWord r.maskBits).rsv) (f.v32 &&& (Fields.ofWord r.maskBits).v32) =
      Fields.ofWord r.matchBits := by
  rw [Row.Selects, ← Fields.toWord_ofWord r.maskBits, Fields.toWord_and, Fields.toWord_ofWord r.maskBits]
  constructor
  · intro h
    rw [← h, Fields.ofWord_toWord]
  · intro h
    rw [h, Fields.toWord_ofWord]

theorem and_ones4 (v : BitVec 4) : v &&& 0xF#4 = v := BitVec.and_allOnes
theorem and_ones8 (v : BitVec 8) : v &&& 0xFF#8 = v := BitVec.and_allOnes
theorem and_ones32 (v : BitVec 32) : v &&& 0xFFFFFFFF#32 = v := BitVec.and_allOnes

/-- The mask of ENC_P16's row leaves the lower half of V32 free. -/
theorem eq_append_of_and_upper_half (v : BitVec 32) (h : v &&& 0xFFFF0000#32 = 0#32) :
    v = 0#16 ++ v.extractLsb' 0 16 := by
  refine (zero_append_extractLsb' v ?_).symm
  have hmask : (v &&& 0xFFFF0000#32).extractLsb' 16 16 = v.extractLsb' 16 16 &&& BitVec.allOnes 16 := by
    rw [BitVec.extractLsb'_and]
    rfl
  rw [h, BitVec.and_allOnes] at hmask
  rw [← hmask]
  rfl

/-- A word that a row selects is the encoding of one of the row's operations. -/
theorem exists_encode_of_selects {r : Row} (hr : r ∈ opcodeTable) {w : Desc} (h : r.Selects w) :
    ∃ i, encode i = w ∧ i.mnemonic = r.mnemonic := by
  rw [← Fields.toWord_ofWord w] at h ⊢
  generalize Fields.ofWord w = f at h ⊢
  obtain ⟨op, len, cmd, v8, rsv, v32⟩ := f
  rw [Row.selects_toWord_iff, Fields.mk.injEq] at h
  simp only [opcodeTable, List.mem_cons, List.not_mem_nil, or_false] at hr
  rcases hr with rfl | rfl | rfl | rfl | rfl | rfl | rfl | rfl | rfl | rfl | rfl | rfl <;>
    simp only [Fields.ofWord, BitVec.reduceExtractLsb', and_ones4, and_ones8, and_ones32, BitVec.and_zero,
      and_true, true_and] at h
  · obtain ⟨rfl, rfl, rfl, rfl, rfl⟩ := h
    exact ⟨.encS cmd, rfl, rfl⟩
  · obtain ⟨rfl, rfl, rfl, rfl⟩ := h
    exact ⟨.encP8 cmd v8, rfl, rfl⟩
  · obtain ⟨rfl, rfl, rfl, rfl, hv32⟩ := h
    rw [eq_append_of_and_upper_half v32 hv32]
    exact ⟨.encP16 cmd _, rfl, rfl⟩
  · obtain ⟨rfl, rfl, rfl⟩ := h
    exact ⟨.encP8P32 cmd v8 v32, rfl, rfl⟩
  · obtain ⟨rfl, rfl, rfl, rfl, rfl⟩ := h
    exact ⟨.xfer len, rfl, rfl⟩
  · obtain ⟨rfl, rfl, rfl, rfl, rfl⟩ := h
    exact ⟨.setaddr v8, rfl, rfl⟩
  · obtain ⟨rfl, rfl, rfl, rfl, rfl, rfl⟩ := h
    exact ⟨.decStatus, rfl, rfl⟩
  · obtain ⟨rfl, rfl, rfl, rfl, rfl, rfl⟩ := h
    exact ⟨.decI16, rfl, rfl⟩
  · obtain ⟨rfl, rfl, rfl, rfl, rfl, rfl⟩ := h
    exact ⟨.decI32, rfl, rfl⟩
  · obtain ⟨rfl, rfl, rfl, rfl, rfl, rfl⟩ := h
    exact ⟨.decPos64, rfl, rfl⟩
  · obtain ⟨rfl, rfl, rfl, rfl, rfl, rfl⟩ := h
    exact ⟨.csumClr, rfl, rfl⟩
  · obtain ⟨rfl, rfl, rfl, rfl, rfl⟩ := h
    exact ⟨.csumAdd v8, rfl, rfl⟩

/-- Every operation's descriptor is selected by the operation's own row. -/
theorem rowSelects_statement (i : Instr) : RowSelects.Statement i := by
  cases i with
  | encS cmd => exact RowSelects.encS cmd
  | encP8 cmd v8 => exact RowSelects.encP8 cmd v8
  | encP16 cmd v16 => exact RowSelects.encP16 cmd v16
  | encP8P32 cmd v8 v32 => exact RowSelects.encP8P32 cmd v8 v32
  | xfer len => exact RowSelects.xfer len
  | setaddr v8 => exact RowSelects.setaddr v8
  | decStatus => exact RowSelects.decStatus
  | decI16 => exact RowSelects.decI16
  | decI32 => exact RowSelects.decI32
  | decPos64 => exact RowSelects.decPos64
  | csumClr => exact RowSelects.csumClr
  | csumAdd v8 => exact RowSelects.csumAdd v8

theorem selects_iff_decode {r : Row} (hr : r ∈ opcodeTable) (w : Desc) :
    r.Selects w ↔ ∃ i, decode w = .ok i ∧ i.mnemonic = r.mnemonic := by
  constructor
  · intro h
    obtain ⟨i, rfl, hname⟩ := exists_encode_of_selects hr h
    exact ⟨i, decode_encode i, hname⟩
  · rintro ⟨i, hdecode, hname⟩
    rw [← encode_of_decode hdecode]
    exact RowSelects.selects_of_mnemonic (rowSelects_statement i) r hr hname.symm

/-- A word no row selects is exactly a word the decoder rejects. -/
theorem selected_by_no_row_iff (w : Desc) : (∀ r ∈ opcodeTable, ¬ r.Selects w) ↔ ∃ why, decode w = .error why := by
  constructor
  · intro h
    cases hd : decode w with
    | error why => exact ⟨why, rfl⟩
    | ok i =>
      obtain ⟨r, hr, _, hselects⟩ := rowSelects_statement i
      rw [encode_of_decode hd] at hselects
      exact absurd hselects (h r hr)
  · rintro ⟨why, hwhy⟩ r hr hselects
    obtain ⟨i, hi, _⟩ := (selects_iff_decode hr w).mp hselects
    rw [hwhy] at hi
    cases hi

/-- R109: OP, RSV and the rows, each of which alone makes a word one that the decoder rejects. -/
theorem decode_error_of_reserved {w : Desc}
    (h : (Fields.ofWord w).op ∈ [0x0#4, 0x7#4, 0xE#4, 0xF#4] ∨ (Fields.ofWord w).rsv ≠ 0#8 ∨
      (∀ r ∈ opcodeTable, ¬ r.Selects w)) : ∃ why, decode w = .error why := by
  cases hd : decode w with
  | error why => exact ⟨why, rfl⟩
  | ok i =>
    obtain hop | hrsv | hrows := h
    · rw [← fields_of_decodeFields hd] at hop
      cases i <;> simp [Instr.fields] at hop
    · rw [← fields_of_decodeFields hd] at hrsv
      cases i <;> exact absurd rfl hrsv
    · obtain ⟨why, hwhy⟩ := (selected_by_no_row_iff w).mp hrows
      rw [hwhy] at hd
      cases hd

/-! ### The statements -/

/-- Settles O26: the fields are read back from the word, and decoding the fields of an operation meets every demand. -/
theorem decodeOfEncode : Obligations.DecodeOfEncode := by
  unfold Obligations.DecodeOfEncode
  exact decode_encode

/-- Settles O25: rows and decoder agree through the operation whose encoding the word is, and a row is known by its
name. -/
theorem decodeAgreesWithMatchAndMask : Obligations.DecodeAgreesWithMatchAndMask := by
  unfold Obligations.DecodeAgreesWithMatchAndMask
  refine ⟨fun r hr w => selects_iff_decode hr w, ?disjoint, fun w i => encode_of_decode⟩
  case disjoint =>
    intro r₁ h₁ r₂ h₂ w hs₁ hs₂
    obtain ⟨i, hi, hname₁⟩ := (selects_iff_decode h₁ w).mp hs₁
    obtain ⟨j, hj, hname₂⟩ := (selects_iff_decode h₂ w).mp hs₂
    cases hi.symm.trans hj
    exact RowSelects.opcodeTable_mnemonic_injective r₁ h₁ r₂ h₂ (hname₁.symm.trans hname₂)

/-- Settles O24: nine closed words. -/
theorem workedDescriptorsDecode : Obligations.WorkedDescriptorsDecode := by
  unfold Obligations.WorkedDescriptorsDecode
  decide

end Sys2Proof
end

section
/-! SUPPORT. The host operations by kind: in IDLE each is an encoding, a decoding, the start of a call, or the write of
one register; during a call each waits (R40). -/

namespace Sys2Proof.Machine

/-! ### During a call -/

theorem exec_busy (i : Instr) {s : State} (h : s.fsm ≠ .idle) : exec i s = .next s := by
  cases i with
  | encS cmd => rw [exec, execEncS, hostOp_busy s _ h]
  | encP8 cmd v8 => rw [exec, execEncP8, hostOp_busy s _ h]
  | encP16 cmd v16 => rw [exec, execEncP16, hostOp_busy s _ h]
  | encP8P32 cmd v8 v32 => rw [exec, execEncP8P32, hostOp_busy s _ h]
  | xfer len => rw [exec, execXfer, hostOp_busy s _ h]
  | setaddr v8 => rw [exec, execSetaddr, hostOp_busy s _ h]
  | decStatus => rw [exec, execDecStatus, hostOp_busy s _ h]
  | decI16 => rw [exec, execDecI16, hostOp_busy s _ h]
  | decI32 => rw [exec, execDecI32, hostOp_busy s _ h]
  | decPos64 => rw [exec, execDecPos64, hostOp_busy s _ h]
  | csumClr => rw [exec, execCsumClr, hostOp_busy s _ h]
  | csumAdd v8 => rw [exec, execCsumAdd, hostOp_busy s _ h]

/-! ### In IDLE -/

section
variable {s : State} (h : s.fsm = .idle)
include h

theorem exec_encS_eq (cmd : Byte) : exec (.encS cmd) s = encodeFrame (bodyS s.addr cmd) s := by
  rw [exec, execEncS, hostOp_idle s _ h]

theorem exec_encP8_eq (cmd v8 : Byte) : exec (.encP8 cmd v8) s = encodeFrame (bodyP8 s.addr cmd v8) s := by
  rw [exec, execEncP8, hostOp_idle s _ h]

theorem exec_encP16_eq (cmd : Byte) (v16 : BitVec 16) :
    exec (.encP16 cmd v16) s = encodeFrame (bodyP16 s.addr cmd v16) s := by
  rw [exec, execEncP16, hostOp_idle s _ h]

theorem exec_encP8P32_eq (cmd v8 : Byte) (v32 : BitVec 32) :
    exec (.encP8P32 cmd v8 v32) s = encodeFrame (bodyP8P32 s.addr cmd v8 v32) s := by
  rw [exec, execEncP8P32, hostOp_idle s _ h]

theorem exec_decI16_idle : exec .decI16 s = decodeFrame 4 valueI16 s := by
  rw [exec, execDecI16, hostOp_idle s _ h]

theorem exec_decI32_idle : exec .decI32 s = decodeFrame 6 valueI32 s := by
  rw [exec, execDecI32, hostOp_idle s _ h]

theorem exec_decPos64_idle : exec .decPos64 s = decodeFrame 8 valuePos64 s := by
  rw [exec, execDecPos64, hostOp_idle s _ h]

/-- The kinds of host operations, with what each is once taken. -/
theorem exec_idle_cases (i : Instr) :
    (∃ body, i.mnemonic ∈ ["ENC_S", "ENC_P8", "ENC_P16", "ENC_P8P32"] ∧ body.length ∈ [2, 3, 4, 7] ∧
      exec i s = encodeFrame body s) ∨
    (∃ need value, i.mnemonic ∈ ["DEC_STATUS", "DEC_I16", "DEC_I32", "DEC_POS64"] ∧ need ∈ [3, 4, 6, 8] ∧
      exec i s = decodeFrame need value s) ∨
    (∃ len, i = .xfer len ∧ exec i s = execXfer len s) ∨
    (∃ v8, i = .setaddr v8 ∧ exec i s = .next ({ s with addr := v8 }.acknowledge .accepted)) ∨
    (∃ acc, i.mnemonic ∈ ["CSUM_CLR", "CSUM_ADD"] ∧
      exec i s = .next ({ s with acc := acc }.acknowledge .accepted)) := by
  cases i with
  | encS cmd => exact .inl ⟨_, by simp [Instr.mnemonic], by simp [bodyS], exec_encS_eq h cmd⟩
  | encP8 cmd v8 => exact .inl ⟨_, by simp [Instr.mnemonic], by simp [bodyP8], exec_encP8_eq h cmd v8⟩
  | encP16 cmd v16 => exact .inl ⟨_, by simp [Instr.mnemonic], by simp [bodyP16], exec_encP16_eq h cmd v16⟩
  | encP8P32 cmd v8 v32 =>
    exact .inl ⟨_, by simp [Instr.mnemonic], by simp [bodyP8P32], exec_encP8P32_eq h cmd v8 v32⟩
  | decStatus => exact .inr (.inl ⟨3, _, by simp [Instr.mnemonic], by simp, exec_decStatus_idle s h⟩)
  | decI16 => exact .inr (.inl ⟨4, _, by simp [Instr.mnemonic], by simp, exec_decI16_idle h⟩)
  | decI32 => exact .inr (.inl ⟨6, _, by simp [Instr.mnemonic], by simp, exec_decI32_idle h⟩)
  | decPos64 => exact .inr (.inl ⟨8, _, by simp [Instr.mnemonic], by simp, exec_decPos64_idle h⟩)
  | xfer len => exact .inr (.inr (.inl ⟨len, rfl, rfl⟩))
  | setaddr v8 => exact .inr (.inr (.inr (.inl ⟨v8, rfl, exec_setaddr_idle v8 s h⟩)))
  | csumClr => exact .inr (.inr (.inr (.inr ⟨_, by simp [Instr.mnemonic], exec_csumClr_idle s h⟩)))
  | csumAdd v8 => exact .inr (.inr (.inr (.inr ⟨_, by simp [Instr.mnemonic], exec_csumAdd_idle v8 s h⟩)))

end

end Sys2Proof.Machine
end

section
/-! SUPPORT. The invariant of R38 after each update of the state and after each kind of step, and the statement that
every step keeps it. -/

namespace Sys2Proof.Machine

/-! ### The frame checks that an encoded and a received frame satisfy -/

theorem frameOk_append_checksum (body rest : List Byte) :
    FrameOk (body ++ [checksum body body.length] ++ rest) (body.length + 1) := by
  have hsum : checksum (body ++ [checksum body body.length] ++ rest) body.length = checksum body body.length := by
    rw [List.append_assoc]
    exact checksum_append_left _ _ _ le_rfl
  rw [FrameOk, Nat.add_sub_cancel, hsum]
  simp [byteAt]

/-! ### Reset -/

theorem State.initial_inv {p : Config.Params} (queued : List Byte) (hp : p.Legal) : (State.initial p queued).Inv := by
  refine ⟨⟨hp, by simp, by simp⟩, ⟨by simp, by simp⟩, by simp [State.InvSync], by simp [State.InvAccum],
    by simp [State.InvBusy], by simp [State.InvCount], by simp [State.InvLen], by simp [State.InvOk],
    by simp [State.InvFailed], by simp [State.InvValid]⟩

/-! ### Moves that touch no register of the block -/

theorem State.Inv.dropMove {s : State} (hinv : s.Inv) : s.dropMove.Inv := by
  unfold State.dropMove
  split <;> exact hinv

/-! ### Host operations in IDLE -/

section
variable {s : State} (hinv : s.Inv) (hidle : s.fsm = .idle)
include hinv hidle

/-- In IDLE only R38 (a), (e) to (h) and R26 say anything, so ADDR and ACC are free, and TXBUF with TXLEN may hold any
legal frame. -/
theorem State.Inv.with_frame {buffer : List Byte} {len : BitVec 4} (addr acc : Byte) (ack : Option Ack)
    (hbuffer : buffer.length = s.cfg.maxFrame)
    (hframe : { s with txbuf := buffer, txlen := len }.InvTx) :
    { s with txbuf := buffer, txlen := len, addr := addr, acc := acc, ack := ack }.Inv := by
  obtain ⟨⟨hlegal, _, hrx⟩, _, _, _, _, hcount, hlen, hok, hfailed, hvalid⟩ := hinv
  have hnever : ∀ {p : Prop} {f : Fsm}, f ≠ .idle → s.fsm = f → p := fun hf h => absurd (h.symm.trans hidle) hf
  exact ⟨⟨hlegal, hbuffer, hrx⟩, hframe, hnever (by simp), hnever (by simp), absurd hidle, hcount, hlen, hok, hfailed,
    hvalid⟩

theorem State.Inv.of_encodeFrame {body : List Byte} (hbody : body.length ∈ [2, 3, 4, 7]) {t : State}
    (h : encodeFrame body s = .next t) : t.Inv := by
  obtain ⟨hfits, hnext⟩ | ⟨_, hfault⟩ := encodeFrame_cases body s
  · cases hnext.symm.trans h
    obtain ⟨⟨_, htx, _⟩, _⟩ := id hinv
    simp only [List.mem_cons, List.not_mem_nil, or_false] at hbody
    have hlen : (BitVec.ofNat 4 (body.length + 1)).toNat = body.length + 1 := by
      rw [BitVec.toNat_ofNat]
      omega
    refine hinv.with_frame hidle s.addr _ _ (by simp; omega) ⟨?_, fun _ => ?_⟩
    · simp only [hlen, List.mem_cons, List.not_mem_nil, or_false]
      omega
    · simp only [hlen]
      exact frameOk_append_checksum body _
  · cases hfault.symm.trans h

theorem State.Inv.deliver (v : BitVec 64) {valid : Bool} (hvalid : valid = true → s.res = .ok) :
    (s.deliver v valid).Inv := by
  obtain ⟨hwf, htx, hsync, haccum, _, hcount, hlen, hok, hfailed, _⟩ := hinv
  exact ⟨hwf, htx, hsync, haccum, absurd hidle, hcount, hlen, hok, hfailed, hvalid⟩

theorem State.Inv.of_decodeFrame {need : Nat} {value : List Byte → BitVec 64} {t : State}
    (h : decodeFrame need value s = .next t) : t.Inv := by
  obtain ⟨_, he⟩ | ⟨_, _, he⟩ | ⟨_, _, _, he⟩ | ⟨hok, _, _, he⟩ := decodeFrame_cases need value s <;>
    cases he.symm.trans h
  · exact hinv.deliver hidle _ (by simp)
  · exact hinv
  · exact hinv.deliver hidle _ (fun _ => hok)

theorem State.Inv.of_execXfer {len : BitVec 4} {t : State} (h : execXfer len s = .next t) : t.Inv := by
  obtain ⟨_, he⟩ | ⟨hframe, hmin, hmax, he⟩ := execXfer_cases len s hidle <;> cases he.symm.trans h
  · exact hinv
  · obtain ⟨hwf, htx, _, _, _, ⟨_, _, _, htimer⟩, _, _, _, _⟩ := hinv
    obtain ⟨⟨_, _, _, _, hattempts, _⟩, _, _⟩ := id hwf
    refine ⟨hwf, htx, by simp [State.InvSync], by simp [State.InvAccum], fun _ => ⟨rfl, rfl, hframe, hmin, hmax⟩,
      ⟨fun _ => ?_, by simp, by simp, htimer⟩, .inr ⟨hmin, hmax⟩, by simp [State.InvOk], by simp [State.InvFailed],
      by simp [State.InvValid]⟩
    exact hattempts

end

/-- A host operation keeps the invariant: in IDLE by the rule of its kind, during a call because it waits (R40). -/
theorem State.Inv.of_exec {s t : State} (hinv : s.Inv) {i : Instr} (h : exec i s = .next t) : t.Inv := by
  by_cases hidle : s.fsm = .idle
  case neg =>
    cases (exec_busy i hidle).symm.trans h
    exact hinv
  case pos =>
    obtain ⟨⟨_, hbuffer, _⟩, hframe, _⟩ := id hinv
    obtain ⟨body, _, hbody, he⟩ | ⟨need, value, _, _, he⟩ | ⟨len, _, he⟩ | ⟨v8, _, he⟩ | ⟨acc, _, he⟩ :=
      exec_idle_cases hidle i <;> rw [he] at h
    · exact hinv.of_encodeFrame hidle hbody h
    · exact hinv.of_decodeFrame hidle h
    · exact hinv.of_execXfer hidle h
    · cases h
      exact hinv.with_frame hidle v8 s.acc _ hbuffer hframe
    · cases h
      exact hinv.with_frame hidle s.addr acc _ hbuffer hframe

/-! ### Steps of a call -/

/-- What the invariant says of a call whatever the engine state: well-formed buffers, a legal frame to send, R38 (d), and
the bounds on ATT and TIMER. -/
def State.CallInv (s : State) : Prop :=
  s.BuffersWf ∧ s.InvTx ∧
  (s.res = .none ∧ s.rvalid = false ∧ s.txlen ≠ 0#4 ∧ s.cfg.minRxLen ≤ s.rxlen.toNat ∧
    s.rxlen.toNat ≤ s.cfg.maxFrame) ∧
  s.att.toNat ≤ s.cfg.maxAttempts ∧ s.timer.toNat ≤ s.cfg.timeoutTicks + 1

theorem State.Inv.callInv {s : State} (hinv : s.Inv) (hbusy : s.fsm ≠ .idle) : s.CallInv := by
  obtain ⟨hwf, htx, _, _, hcall, ⟨_, _, hatt, htimer⟩, _⟩ := hinv
  exact ⟨hwf, htx, hcall hbusy, hatt, htimer⟩

namespace State.CallInv

variable {s : State} (hcall : s.CallInv)
include hcall

/-- Another attempt may be made. -/
theorem send (hleft : s.att.toNat < s.cfg.maxAttempts) (rxcnt : BitVec 4) (acc : Byte) :
    { s with rxcnt := rxcnt, acc := acc, fsm := .send }.Inv := by
  obtain ⟨hwf, htx, ⟨hres, hvalid, hframe, hmin, hmax⟩, hatt, htimer⟩ := hcall
  exact ⟨hwf, htx, by simp [State.InvSync], by simp [State.InvAccum], fun _ => ⟨hres, hvalid, hframe, hmin, hmax⟩,
    ⟨fun _ => hleft, by simp, hatt, htimer⟩, .inr ⟨hmin, hmax⟩, by simp [State.InvOk, hres],
    by simp [State.InvFailed, hres], by simp [State.InvValid, hvalid]⟩

/-- The call has failed. -/
theorem failed (hspent : s.att.toNat = s.cfg.maxAttempts) (cause : Cause) (acc : Byte) :
    { s with rxcnt := 0#4, acc := acc, res := cause.res, fsm := .idle }.Inv := by
  obtain ⟨hwf, htx, ⟨hres, hvalid, hframe, hmin, hmax⟩, hatt, htimer⟩ := hcall
  exact ⟨hwf, htx, by simp [State.InvSync], by simp [State.InvAccum], by simp [State.InvBusy],
    ⟨by simp, by simp, hatt, htimer⟩, .inr ⟨hmin, hmax⟩, by cases cause <;> simp [State.InvOk, Cause.res],
    fun _ => ⟨rfl, hspent, rfl⟩, by simp [State.InvValid, hvalid]⟩

theorem attemptFail (cause : Cause) : (attemptFail cause s).Inv := by
  obtain ⟨hleft, he⟩ | ⟨hspent, he⟩ := attemptFail_cases cause s <;> rw [he]
  · exact hcall.send hleft _ _
  · obtain ⟨_, _, _, hatt, _⟩ := id hcall
    exact hcall.failed (hatt.antisymm hspent) cause _

variable (hatt : 1 ≤ s.att.toNat)
include hatt

/-- The engine waits for the first byte. -/
theorem sync (htimer : s.timer.toNat ≤ s.cfg.timeoutTicks) :
    { s with rxcnt := 0#4, acc := 0#8, fsm := .sync }.Inv := by
  obtain ⟨hwf, htx, ⟨hres, hvalid, hframe, hmin, hmax⟩, hatt', htimer'⟩ := hcall
  exact ⟨hwf, htx, fun _ => ⟨rfl, rfl⟩, by simp [State.InvAccum], fun _ => ⟨hres, hvalid, hframe, hmin, hmax⟩,
    ⟨by simp, fun _ => ⟨hatt, htimer⟩, hatt', htimer'⟩, .inr ⟨hmin, hmax⟩, by simp [State.InvOk, hres],
    by simp [State.InvFailed, hres], by simp [State.InvValid, hvalid]⟩

/-- The engine has part of a frame. -/
theorem accum (hcnt : 1 ≤ s.rxcnt.toNat) (hpart : s.rxcnt.toNat ≤ s.rxlen.toNat - 1) (haddr : byteAt s.rxbuf 0 = s.addr)
    (hacc : s.acc = checksum s.rxbuf s.rxcnt.toNat) (htimer : s.timer.toNat ≤ s.cfg.timeoutTicks) :
    { s with fsm := .accum }.Inv := by
  obtain ⟨hwf, htx, ⟨hres, hvalid, hframe, hmin, hmax⟩, hatt', htimer'⟩ := hcall
  exact ⟨hwf, htx, by simp [State.InvSync], fun _ => ⟨hcnt, hpart, haddr, hacc⟩,
    fun _ => ⟨hres, hvalid, hframe, hmin, hmax⟩, ⟨by simp, fun _ => ⟨hatt, htimer⟩, hatt', htimer'⟩, .inr ⟨hmin, hmax⟩,
    by simp [State.InvOk, hres], by simp [State.InvFailed, hres], by simp [State.InvValid, hvalid]⟩

omit hatt in
/-- The call has succeeded. -/
theorem succeeded (hframe : FrameOk s.rxbuf s.rxlen.toNat) :
    { s with rxcnt := s.rxlen, res := .ok, fsm := .idle }.Inv := by
  obtain ⟨hwf, htx, ⟨_, hvalid, _, hmin, hmax⟩, hatt', htimer'⟩ := hcall
  obtain ⟨⟨_, _, _, _, _, _, _, _, hleast, _⟩, _⟩ := id hwf
  have hnonzero : s.rxlen ≠ 0#4 := by
    rintro hzero
    rw [hzero] at hmin
    simp at hmin
    omega
  exact ⟨hwf, htx, by simp [State.InvSync], by simp [State.InvAccum], by simp [State.InvBusy],
    ⟨by simp, by simp, hatt', htimer'⟩, .inr ⟨hmin, hmax⟩, fun _ => ⟨rfl, rfl, hnonzero, hframe⟩,
    by simp [State.InvFailed], fun _ => rfl⟩

end State.CallInv

theorem State.Inv.of_sendStep {s t : State} {a : Config.WriteAnswer} (hinv : s.Inv) (hsend : s.fsm = .send)
    (h : sendStep a s = .next t) : t.Inv := by
  have hatt := hinv.att_add_one_of_send hsend
  obtain ⟨hwf, htx, hregs, _, htimer⟩ := hinv.callInv (by simp [hsend])
  obtain ⟨_, _, _, _, _, ⟨hleft, _⟩, _⟩ := id hinv
  have hmax : (s.att + 1#4).toNat ≤ s.cfg.maxAttempts := by have := hleft hsend; omega
  obtain ⟨_, he⟩ | ⟨_, _, he⟩ | ⟨_, k, _, he⟩ := sendStep_cases a s <;> cases he.symm.trans h
  · have hcall : State.CallInv { s with
        att := s.att + 1#4, rxq := [], txs := s.txs ++ s.txFrame, timer := 0#16 } :=
      ⟨hwf, htx, hregs, hmax, by simp⟩
    exact hcall.sync (by simp only; omega) (by simp)
  · have hcall : State.CallInv { s with
        att := s.att + 1#4, rxq := [], rxcnt := 0#4, acc := 0#8, txs := s.txs ++ s.txFrame.take k } :=
      ⟨hwf, htx, hregs, hmax, htimer⟩
    exact hcall.attemptFail .write

theorem State.busy_of_receiving {s : State} (h : s.fsm = .sync ∨ s.fsm = .accum) : s.fsm ≠ .idle := by
  rcases h with h | h <;> simp [h]

section
variable {s t : State} (hinv : s.Inv) (hreceiving : s.fsm = .sync ∨ s.fsm = .accum)
include hinv hreceiving

theorem State.Inv.one_le_att : 1 ≤ s.att.toNat := by
  obtain ⟨_, _, _, _, _, ⟨_, hcount, _⟩, _⟩ := hinv
  exact (hcount hreceiving).1

theorem State.Inv.timer_le : s.timer.toNat ≤ s.cfg.timeoutTicks := by
  obtain ⟨_, _, _, _, _, ⟨_, hcount, _⟩, _⟩ := hinv
  exact (hcount hreceiving).2

/-- RXCNT counts a byte without wrapping (R39). -/
theorem State.Inv.rxcnt_add_one : (s.rxcnt + 1#4).toNat = s.rxcnt.toNat + 1 := by
  have hcnt := hinv.rxcnt_lt_rxlen hreceiving
  have hlen := s.rxlen.isLt
  rw [BitVec.toNat_add]
  exact Nat.mod_eq_of_lt (by simp only [BitVec.toNat_ofNat]; omega)

/-- The first byte stored is ADDR: it is kept where it is, or it is the byte just accepted (R38 (c), R155). -/
theorem State.Inv.byteAt_zero_stored {b : Byte} (haccept : s.rxcnt ≠ 0#4 ∨ b = s.addr) :
    byteAt (s.rxbuf.set s.rxcnt.toNat b) 0 = s.addr := by
  have hroom := hinv.rxcnt_lt_rxbuf_length hreceiving
  by_cases hcnt : s.rxcnt = 0#4
  · rw [hcnt] at hroom ⊢
    exact (byteAt_set_same _ _ b hroom).trans (haccept.resolve_left (by simp [hcnt]))
  · obtain ⟨_, _, hsync, haccum, _⟩ := hinv
    have hfsm : s.fsm = .accum := hreceiving.resolve_left fun h => hcnt (hsync h).1
    obtain ⟨hpos, _, haddr, _⟩ := haccum hfsm
    rwa [byteAt_set_ne _ _ _ b (by omega)]

theorem State.Inv.checksum_stored (b : Byte) :
    checksum (s.rxbuf.set s.rxcnt.toNat b) (s.rxcnt.toNat + 1) = s.acc + b := by
  have hroom := hinv.rxcnt_lt_rxbuf_length hreceiving
  have hbefore : checksum (s.rxbuf.set s.rxcnt.toNat b) s.rxcnt.toNat = checksum s.rxbuf s.rxcnt.toNat :=
    checksum_congr _ _ _ (List.take_set_of_le le_rfl)
  rw [checksum_succ _ _ (by simpa using hroom), hbefore, byteAt_set_same _ _ b hroom, hinv.acc_eq_checksum hreceiving]

theorem State.Inv.of_acceptByte {b : Byte} (haccept : s.rxcnt ≠ 0#4 ∨ b = s.addr) (h : acceptByte b s = .next t) :
    t.Inv := by
  have hatt := hinv.one_le_att hreceiving
  have hcnt := hinv.rxcnt_lt_rxlen hreceiving
  have hstored := hinv.frameOk_stored_iff hreceiving b
  have hcount := hinv.rxcnt_add_one hreceiving
  obtain ⟨⟨hlegal, htxbuf, hrxbuf⟩, htx, hregs, hmax, _⟩ := hinv.callInv (s.busy_of_receiving hreceiving)
  have hcall : State.CallInv { s with rxbuf := s.rxbuf.set s.rxcnt.toNat b, timer := 0#16 } :=
    ⟨⟨hlegal, htxbuf, by simpa using hrxbuf⟩, htx, hregs, hmax, by simp⟩
  obtain ⟨_, he⟩ | ⟨_, hmore, he⟩ | ⟨_, hlast, hsum, he⟩ | ⟨_, _, _, he⟩ := acceptByte_cases b s <;>
    cases he.symm.trans h
  · have hcall' : State.CallInv { s with
        rxbuf := s.rxbuf.set s.rxcnt.toNat b, timer := 0#16, acc := s.acc + b, rxcnt := s.rxcnt + 1#4 } := hcall
    refine hcall'.accum hatt ?_ ?_ (hinv.byteAt_zero_stored hreceiving haccept) ?_ (by simp) <;> simp only [hcount]
    · omega
    · omega
    · exact (hinv.checksum_stored hreceiving b).symm
  · exact hcall.succeeded ((hstored (by omega)).mpr hsum)
  · exact hcall.sync hatt (by simp)

theorem State.Inv.of_rxByteStep (h : rxByteStep s = .next t) : t.Inv := by
  obtain ⟨_, he⟩ | ⟨_, _, _, _, _, he⟩ | ⟨b, rest, _, haccept, he⟩ := rxByteStep_cases s
  · cases he.symm.trans h
    exact hinv
  · cases he.symm.trans h
    exact hinv
  · exact State.Inv.of_acceptByte (s := { s with rxq := rest }) hinv hreceiving haccept (he.symm.trans h)

end

/-- A TICK while receiving counts within P_TIMEOUT_TICKS, at most one past it, so TIMER does not wrap (R9, R28). -/
theorem State.Inv.timer_add_one {s : State} (hinv : s.Inv) (hreceiving : s.fsm = .sync ∨ s.fsm = .accum) :
    (BitVec.ofNat 16 (s.timer.toNat + 1)).toNat = s.timer.toNat + 1 := by
  have htimer := hinv.timer_le hreceiving
  obtain ⟨⟨⟨_, _, _, hticks, _⟩, _⟩, _⟩ := hinv
  rw [BitVec.toNat_ofNat]
  omega

theorem State.Inv.tickStep {s : State} (hinv : s.Inv) : (tickStep s).Inv := by
  obtain ⟨_, he⟩ | ⟨hr, hintime, he⟩ | ⟨hr, _, he⟩ := tickStep_cases s <;> rw [he]
  case inl => exact hinv
  all_goals
    rw [State.receiving_iff] at hr
    have hcount := hinv.timer_add_one hr
    have htimer := hinv.timer_le hr
  case inr.inl =>
    obtain ⟨hwf, htx, hsync, haccum, hbusy, ⟨hsend, hreceiving, hatt, _⟩, hrest⟩ := hinv
    refine ⟨hwf, htx, hsync, haccum, hbusy, ⟨hsend, fun _ => ⟨(hreceiving hr).1, ?_⟩, hatt, ?_⟩, hrest⟩ <;>
      simp only [hcount] <;> omega
  case inr.inr =>
    obtain ⟨hwf, htx, hregs, hatt, _⟩ := hinv.callInv (s.busy_of_receiving hr)
    have hcall : State.CallInv { s with timer := BitVec.ofNat 16 (s.timer.toNat + 1) } :=
      ⟨hwf, htx, hregs, hatt, by simp only [hcount]; omega⟩
    exact hcall.attemptFail .timeout

/-! ### The step -/

theorem State.Inv.of_engineStep {s t : State} {a : Config.WriteAnswer} (hinv : s.Inv) (h : engineStep a s = .next t) :
    t.Inv := by
  obtain ⟨_, he⟩ | ⟨hsend, he⟩ | ⟨hr, he⟩ := engineStep_cases a s <;> rw [he] at h
  · cases h
    exact hinv
  · exact hinv.of_sendStep hsend h
  · exact hinv.of_rxByteStep (s.receiving_iff.mp hr) h

theorem State.Inv.of_transferRequest {s t : State} {w : Desc} (hinv : s.Inv) (h : transferRequest w s = .next t) :
    t.Inv := by
  obtain ⟨i, _, he⟩ | ⟨_, _, he⟩ := transferRequest_cases w s <;> rw [he] at h
  · exact hinv.of_exec h
  · cases h
    exact hinv

theorem State.Inv.of_environmentStep {s t : State} (hinv : s.Inv) (h : environmentStep s = .next t) : t.Inv := by
  have hdrop := hinv.dropMove
  obtain ⟨w, _, he⟩ | ⟨b, _, he⟩ | ⟨_, hr, _, he⟩ | ⟨_, _, he⟩ | ⟨a, _, he⟩ | ⟨q, _, he⟩ := environmentStep_cases s <;>
    rw [he] at h
  · cases h
    exact hdrop
  · cases h
    exact hdrop
  · exact hinv.of_rxByteStep (s.receiving_iff.mp hr) h
  · cases h
    exact hdrop.tickStep
  · exact hdrop.of_engineStep h
  · cases h
    obtain ⟨⟨hlegal, _⟩, _⟩ := hdrop
    exact State.initial_inv q hlegal

theorem State.Inv.of_step {s t : State} (hinv : s.Inv) (h : step s = .next t) : t.Inv := by
  obtain ⟨w, rest, _, _, he⟩ | ⟨_, he⟩ := step_cases s <;> rw [he] at h
  · exact State.Inv.of_transferRequest (s := { s with requests := rest }) hinv h
  · exact hinv.of_environmentStep h

/-! ### The statements -/

open Sys2Proof.Config

/-- Settles O42: by the kind of the step, each with the update it makes. -/
theorem stepKeepsInvariant : Obligations.StepKeepsInvariant := by
  unfold Obligations.StepKeepsInvariant
  exact fun s t => State.Inv.of_step

/-- Settles O43: `State.reset` is the case of the default parameters, which are legal. -/
theorem invariantHoldsAfterReset : Obligations.InvariantHoldsAfterReset := by
  unfold Obligations.InvariantHoldsAfterReset
  refine ⟨?_, fun p queued hp => State.initial_inv queued hp⟩
  rw [State.reset_eq_initial]
  exact State.initial_inv _ (by decide)

end Sys2Proof.Machine
end

section
/-! SUPPORT. What each kind of step leaves unchanged (R46), that none of them stops (R191), and the statements that
follow from this. -/

namespace Sys2Proof.Machine

open Sys2Proof.Config

/-! ### What a host operation leaves unchanged -/

/-- What no host operation touches: RXBUF, RXCNT, TIMER, the link, the environment and the parameters (R46). -/
structure State.HostKeeps (s t : State) : Prop where
  rxbuf : t.rxbuf = s.rxbuf
  rxcnt : t.rxcnt = s.rxcnt
  timer : t.timer = s.timer
  rxq : t.rxq = s.rxq
  txs : t.txs = s.txs
  requests : t.requests = s.requests
  agenda : t.agenda = s.agenda
  drawn : t.drawn = s.drawn
  cfg : t.cfg = s.cfg

theorem State.HostKeeps.refl (s : State) : s.HostKeeps s := ⟨rfl, rfl, rfl, rfl, rfl, rfl, rfl, rfl, rfl⟩

theorem exec_hostKeeps {i : Instr} {s t : State} (h : exec i s = .next t) : s.HostKeeps t := by
  by_cases hidle : s.fsm = .idle
  case neg =>
    cases (exec_busy i hidle).symm.trans h
    exact .refl s
  case pos =>
    obtain ⟨body, _, _, he⟩ | ⟨need, value, _, _, he⟩ | ⟨len, _, he⟩ | ⟨v8, _, he⟩ | ⟨acc, _, he⟩ :=
      exec_idle_cases hidle i <;> rw [he] at h
    · obtain ⟨_, he⟩ | ⟨_, he⟩ := encodeFrame_cases body s <;> cases he.symm.trans h
      exact ⟨rfl, rfl, rfl, rfl, rfl, rfl, rfl, rfl, rfl⟩
    · obtain ⟨_, he⟩ | ⟨_, _, he⟩ | ⟨_, _, _, he⟩ | ⟨_, _, _, he⟩ := decodeFrame_cases need value s <;>
        cases he.symm.trans h <;> exact ⟨rfl, rfl, rfl, rfl, rfl, rfl, rfl, rfl, rfl⟩
    · obtain ⟨_, he⟩ | ⟨_, _, _, he⟩ := execXfer_cases len s hidle <;> cases he.symm.trans h <;>
        exact ⟨rfl, rfl, rfl, rfl, rfl, rfl, rfl, rfl, rfl⟩
    · cases h
      exact ⟨rfl, rfl, rfl, rfl, rfl, rfl, rfl, rfl, rfl⟩
    · cases h
      exact ⟨rfl, rfl, rfl, rfl, rfl, rfl, rfl, rfl, rfl⟩

/-- The registers that some host operations write, each by the operations that do not (R46). -/
theorem exec_writes_only {i : Instr} {s t : State} (h : exec i s = .next t) :
    (i.mnemonic ∉ ["ENC_S", "ENC_P8", "ENC_P16", "ENC_P8P32"] → t.txbuf = s.txbuf ∧ t.txlen = s.txlen) ∧
    (i.mnemonic ∉ ["ENC_S", "ENC_P8", "ENC_P16", "ENC_P8P32", "CSUM_CLR", "CSUM_ADD"] → t.acc = s.acc) ∧
    (i.mnemonic ∉ ["DEC_STATUS", "DEC_I16", "DEC_I32", "DEC_POS64"] → t.rdata = s.rdata) ∧
    (i.mnemonic ∉ ["DEC_STATUS", "DEC_I16", "DEC_I32", "DEC_POS64", "XFER"] → t.rvalid = s.rvalid) ∧
    (i.mnemonic ≠ "SETADDR" → t.addr = s.addr) ∧
    (i.mnemonic ≠ "XFER" → t.rxlen = s.rxlen ∧ t.att = s.att ∧ t.fsm = s.fsm ∧ t.res = s.res) := by
  by_cases hidle : s.fsm = .idle
  case neg =>
    cases (exec_busy i hidle).symm.trans h
    simp
  case pos =>
    obtain ⟨body, hname, _, he⟩ | ⟨need, value, hname, _, he⟩ | ⟨len, rfl, he⟩ | ⟨v8, rfl, he⟩ | ⟨acc, hname, he⟩ :=
      exec_idle_cases hidle i <;> rw [he] at h
    · obtain ⟨_, he⟩ | ⟨_, he⟩ := encodeFrame_cases body s <;> cases he.symm.trans h
      simp only [List.mem_cons, List.not_mem_nil, or_false] at hname
      rcases hname with hname | hname | hname | hname <;> simp [hname]
    · simp only [List.mem_cons, List.not_mem_nil, or_false] at hname
      obtain ⟨_, he⟩ | ⟨_, _, he⟩ | ⟨_, _, _, he⟩ | ⟨_, _, _, he⟩ := decodeFrame_cases need value s <;>
        cases he.symm.trans h <;> rcases hname with hname | hname | hname | hname <;> simp [hname, badReq]
    · obtain ⟨_, he⟩ | ⟨_, _, _, he⟩ := execXfer_cases len s hidle <;> cases he.symm.trans h <;>
        simp [Instr.mnemonic, badReq]
    · cases h
      simp [Instr.mnemonic]
    · cases h
      simp only [List.mem_cons, List.not_mem_nil, or_false] at hname
      rcases hname with hname | hname <;> simp [hname]

/-! ### What the engine and the clock leave unchanged -/

/-- What neither the engine nor a TICK touches: ADDR, the frame to send, RXLEN, the result read, the request channel and
the parameters (R46). -/
structure State.EngineKeeps (s t : State) : Prop where
  addr : t.addr = s.addr
  txbuf : t.txbuf = s.txbuf
  txlen : t.txlen = s.txlen
  rxlen : t.rxlen = s.rxlen
  rdata : t.rdata = s.rdata
  rvalid : t.rvalid = s.rvalid
  ack : t.ack = s.ack
  requests : t.requests = s.requests
  agenda : t.agenda = s.agenda
  drawn : t.drawn = s.drawn
  cfg : t.cfg = s.cfg

theorem State.EngineKeeps.refl (s : State) : s.EngineKeeps s :=
  ⟨rfl, rfl, rfl, rfl, rfl, rfl, rfl, rfl, rfl, rfl, rfl⟩

/-- An attempt failure touches RXCNT, ACC, RES and FSM alone (R154). -/
theorem attemptFail_keeps (cause : Cause) (s : State) :
    s.EngineKeeps (attemptFail cause s) ∧ (attemptFail cause s).rxbuf = s.rxbuf ∧
      (attemptFail cause s).att = s.att ∧ (attemptFail cause s).rxq = s.rxq ∧ (attemptFail cause s).txs = s.txs := by
  obtain ⟨_, he⟩ | ⟨_, he⟩ := attemptFail_cases cause s <;> rw [he] <;>
    exact ⟨⟨rfl, rfl, rfl, rfl, rfl, rfl, rfl, rfl, rfl, rfl, rfl⟩, rfl, rfl, rfl, rfl⟩

/-- SEND leaves RXBUF alone too, and puts the frame or its first bytes on the link (R152, R153). -/
theorem sendStep_keeps {a : WriteAnswer} {s t : State} (h : sendStep a s = .next t) :
    s.EngineKeeps t ∧ t.rxbuf = s.rxbuf ∧ ∃ sent, t.txs = s.txs ++ sent ∧ sent <+: s.txFrame := by
  obtain ⟨_, he⟩ | ⟨_, _, he⟩ | ⟨_, k, _, he⟩ := sendStep_cases a s <;> cases he.symm.trans h
  · exact ⟨⟨rfl, rfl, rfl, rfl, rfl, rfl, rfl, rfl, rfl, rfl, rfl⟩, rfl, _, rfl, ⟨[], List.append_nil _⟩⟩
  · obtain ⟨hkeeps, hrxbuf, _, _, htxs⟩ := attemptFail_keeps .write
      { s with att := s.att + 1#4, rxq := [], rxcnt := 0#4, acc := 0#8, txs := s.txs ++ s.txFrame.take k }
    exact ⟨{ hkeeps with }, hrxbuf, _, htxs, List.take_prefix k _⟩

theorem acceptByte_keeps {b : Byte} {s t : State} (h : acceptByte b s = .next t) :
    s.EngineKeeps t ∧ t.att = s.att ∧ t.txs = s.txs := by
  obtain ⟨_, he⟩ | ⟨_, _, he⟩ | ⟨_, _, _, he⟩ | ⟨_, _, _, he⟩ := acceptByte_cases b s <;> cases he.symm.trans h <;>
    exact ⟨⟨rfl, rfl, rfl, rfl, rfl, rfl, rfl, rfl, rfl, rfl, rfl⟩, rfl, rfl⟩

/-- RXBYTE leaves ATT and TXS alone too (R155). -/
theorem rxByteStep_keeps {s t : State} (h : rxByteStep s = .next t) :
    s.EngineKeeps t ∧ t.att = s.att ∧ t.txs = s.txs := by
  obtain ⟨_, he⟩ | ⟨b, rest, _, _, _, he⟩ | ⟨b, rest, _, _, he⟩ := rxByteStep_cases s
  · cases he.symm.trans h
    exact ⟨.refl s, rfl, rfl⟩
  · cases he.symm.trans h
    exact ⟨⟨rfl, rfl, rfl, rfl, rfl, rfl, rfl, rfl, rfl, rfl, rfl⟩, rfl, rfl⟩
  · obtain ⟨hkeeps, hatt, htxs⟩ := acceptByte_keeps (he.symm.trans h)
    exact ⟨{ hkeeps with }, hatt, htxs⟩

/-- TICK leaves RXBUF, ATT, RXQ and TXS alone too (R158). -/
theorem tickStep_keeps (s : State) :
    s.EngineKeeps (tickStep s) ∧ (tickStep s).rxbuf = s.rxbuf ∧ (tickStep s).att = s.att ∧
      (tickStep s).rxq = s.rxq ∧ (tickStep s).txs = s.txs := by
  obtain ⟨_, he⟩ | ⟨_, _, he⟩ | ⟨_, _, he⟩ := tickStep_cases s <;> rw [he]
  · exact ⟨.refl s, rfl, rfl, rfl, rfl⟩
  · exact ⟨⟨rfl, rfl, rfl, rfl, rfl, rfl, rfl, rfl, rfl, rfl, rfl⟩, rfl, rfl, rfl, rfl⟩
  · obtain ⟨hkeeps, hrest⟩ := attemptFail_keeps .timeout { s with timer := BitVec.ofNat 16 (s.timer.toNat + 1) }
    exact ⟨{ hkeeps with }, hrest⟩

theorem engineStep_keeps {a : WriteAnswer} {s t : State} (h : engineStep a s = .next t) : s.EngineKeeps t := by
  obtain ⟨_, he⟩ | ⟨_, he⟩ | ⟨_, he⟩ := engineStep_cases a s <;> rw [he] at h
  · cases h
    exact .refl s
  · exact (sendStep_keeps h).1
  · exact (rxByteStep_keeps h).1

/-! ### The moves of the environment -/

theorem State.dropMove_txFrame (s : State) : s.dropMove.txFrame = s.txFrame := by simp [State.txFrame]

/-- A move of the environment presents requests and takes none (R40), and leaves the acknowledge, which only reset
clears. -/
theorem environmentStep_requests_ack {s t : State} (h : environmentStep s = .next t) :
    s.requests <+: t.requests ∧ (t.ack = s.ack ∨ t.ack = none) := by
  obtain ⟨w, _, he⟩ | ⟨b, _, he⟩ | ⟨_, _, _, he⟩ | ⟨_, _, he⟩ | ⟨a, _, he⟩ | ⟨q, _, he⟩ := environmentStep_cases s <;>
    rw [he] at h
  · cases h
    exact ⟨⟨[w], by simp⟩, .inl (by simp)⟩
  · cases h
    simp
  · obtain ⟨hkeeps, _⟩ := rxByteStep_keeps h
    simp [hkeeps.requests, hkeeps.ack]
  · cases h
    obtain ⟨hkeeps, _⟩ := tickStep_keeps s.dropMove
    simp [hkeeps.requests, hkeeps.ack]
  · have hkeeps := engineStep_keeps h
    simp [hkeeps.requests, hkeeps.ack]
  · cases h
    simp

/-- Of the environment's moves only reset writes ADDR (R46). -/
theorem environmentStep_addr {s t : State} (h : environmentStep s = .next t) :
    t.addr = s.addr ∨ ∃ queued, s.nextMove = .reset queued ∧ t.addr = s.cfg.addrReset := by
  obtain ⟨w, _, he⟩ | ⟨b, _, he⟩ | ⟨_, _, _, he⟩ | ⟨_, _, he⟩ | ⟨a, _, he⟩ | ⟨q, hmove, he⟩ :=
    environmentStep_cases s <;> rw [he] at h
  · cases h
    simp
  · cases h
    simp
  · exact .inl (rxByteStep_keeps h).1.addr
  · cases h
    simp [(tickStep_keeps s.dropMove).1.addr]
  · simp [(engineStep_keeps h).addr]
  · cases h
    exact .inr ⟨q, hmove, by simp⟩

/-- Without reset, a move of the environment puts at most the frame in TXBUF on the link, and only in SEND (R152). -/
theorem environmentStep_txs {s t : State} (h : environmentStep s = .next t)
    (hreset : ∀ queued, s.nextMove ≠ .reset queued) :
    ∃ sent, t.txs = s.txs ++ sent ∧ sent <+: s.txFrame ∧ (sent ≠ [] → s.fsm = .send) := by
  have hnone : t.txs = s.txs → ∃ sent, t.txs = s.txs ++ sent ∧ sent <+: s.txFrame ∧ (sent ≠ [] → s.fsm = .send) :=
    fun h => ⟨[], by simpa using h, List.nil_prefix, by simp⟩
  obtain ⟨w, _, he⟩ | ⟨b, _, he⟩ | ⟨_, _, _, he⟩ | ⟨_, _, he⟩ | ⟨a, _, he⟩ | ⟨q, hmove, he⟩ :=
    environmentStep_cases s <;> rw [he] at h
  · cases h
    exact hnone (by simp)
  · cases h
    exact hnone (by simp)
  · exact hnone (rxByteStep_keeps h).2.2
  · cases h
    obtain ⟨_, _, _, _, htxs⟩ := tickStep_keeps s.dropMove
    exact hnone (by simp [htxs])
  · obtain ⟨_, he⟩ | ⟨hsend, he⟩ | ⟨_, he⟩ := engineStep_cases a s.dropMove <;> rw [he] at h
    · cases h
      exact hnone (by simp)
    · obtain ⟨_, _, sent, htxs, hprefix⟩ := sendStep_keeps h
      exact ⟨sent, by simpa using htxs, by rwa [s.dropMove_txFrame] at hprefix, fun _ => by simpa using hsend⟩
    · obtain ⟨_, _, htxs⟩ := rxByteStep_keeps h
      exact hnone (by simp [htxs])
  · exact absurd hmove (hreset q)

/-! ### No step stops (R191) -/

/-- With buffers of the stated capacity every host operation has a next state: the longest body has 7 bytes, the longest
value ends at byte 6. -/
theorem exec_next (i : Instr) {s : State} (hwf : s.BuffersWf) : ∃ t, exec i s = .next t := by
  by_cases hidle : s.fsm = .idle
  case neg => exact ⟨s, exec_busy i hidle⟩
  case pos =>
    obtain ⟨⟨_, _, _, _, _, _, hcapacity, _⟩, htx, hrx⟩ := hwf
    obtain ⟨body, _, hbody, he⟩ | ⟨need, value, _, hneed, he⟩ | ⟨len, _, he⟩ | ⟨v8, _, he⟩ | ⟨acc, _, he⟩ :=
      exec_idle_cases hidle i <;> rw [he]
    · simp only [List.mem_cons, List.not_mem_nil, or_false] at hbody
      obtain ⟨_, he⟩ | ⟨hshort, _⟩ := encodeFrame_cases body s
      · exact ⟨_, he⟩
      · omega
    · simp only [List.mem_cons, List.not_mem_nil, or_false] at hneed
      obtain ⟨_, he⟩ | ⟨_, _, he⟩ | ⟨_, _, hshort, _⟩ | ⟨_, _, _, he⟩ := decodeFrame_cases need value s
      · exact ⟨_, he⟩
      · exact ⟨_, he⟩
      · omega
      · exact ⟨_, he⟩
    · obtain ⟨_, he⟩ | ⟨_, _, _, he⟩ := execXfer_cases len s hidle <;> exact ⟨_, he⟩
    · exact ⟨_, rfl⟩
    · exact ⟨_, rfl⟩

theorem transferRequest_next (w : Desc) {s : State} (hwf : s.BuffersWf) : ∃ t, transferRequest w s = .next t := by
  obtain ⟨i, _, he⟩ | ⟨_, _, he⟩ := transferRequest_cases w s <;> rw [he]
  · exact exec_next i hwf
  · exact ⟨_, rfl⟩

theorem State.Inv.sendStep_next {s : State} (hinv : s.Inv) (a : WriteAnswer) : ∃ t, sendStep a s = .next t := by
  have hfits := hinv.txlen_le_txbuf_length
  cases a with
  | ok => exact ⟨_, sendStep_ok hfits⟩
  | err k => exact ⟨_, sendStep_err hfits k⟩

theorem State.Inv.rxByteStep_next {s : State} (hinv : s.Inv) (hreceiving : s.fsm = .sync ∨ s.fsm = .accum) :
    ∃ t, rxByteStep s = .next t := by
  have hroom := hinv.rxcnt_lt_rxbuf_length hreceiving
  obtain ⟨_, he⟩ | ⟨_, _, _, _, _, he⟩ | ⟨b, rest, _, _, he⟩ := rxByteStep_cases s
  · exact ⟨_, he⟩
  · exact ⟨_, he⟩
  · rw [he]
    obtain ⟨hfull, _⟩ | ⟨_, _, he⟩ | ⟨_, _, _, he⟩ | ⟨_, _, _, he⟩ := acceptByte_cases b { s with rxq := rest }
    · exact absurd hroom hfull.not_gt
    · exact ⟨_, he⟩
    · exact ⟨_, he⟩
    · exact ⟨_, he⟩

theorem State.Inv.engineStep_next {s : State} (hinv : s.Inv) (a : WriteAnswer) : ∃ t, engineStep a s = .next t := by
  obtain ⟨_, he⟩ | ⟨_, he⟩ | ⟨hr, he⟩ := engineStep_cases a s <;> rw [he]
  · exact ⟨_, rfl⟩
  · exact hinv.sendStep_next a
  · exact hinv.rxByteStep_next (s.receiving_iff.mp hr)

theorem State.Inv.step_next {s : State} (hinv : s.Inv) : ∃ t, step s = .next t := by
  obtain ⟨w, rest, _, _, he⟩ | ⟨_, he⟩ := step_cases s <;> rw [he]
  · exact transferRequest_next w (s := { s with requests := rest }) hinv.1
  · obtain ⟨w, _, he⟩ | ⟨b, _, he⟩ | ⟨_, hr, _, he⟩ | ⟨_, _, he⟩ | ⟨a, _, he⟩ | ⟨q, _, he⟩ :=
      environmentStep_cases s <;> rw [he]
    · exact ⟨_, rfl⟩
    · exact ⟨_, rfl⟩
    · exact hinv.rxByteStep_next (s.receiving_iff.mp hr)
    · exact ⟨_, rfl⟩
    · exact hinv.dropMove.engineStep_next a
    · exact ⟨_, rfl⟩

/-! ### No step is a refusal of the model -/

theorem exec_ne_refused (i : Instr) (s : State) (r : Refusal) : exec i s ≠ .refused r := by
  by_cases hidle : s.fsm = .idle
  case neg => simp [exec_busy i hidle]
  case pos =>
    obtain ⟨body, _, _, he⟩ | ⟨need, value, _, _, he⟩ | ⟨len, _, he⟩ | ⟨v8, _, he⟩ | ⟨acc, _, he⟩ :=
      exec_idle_cases hidle i <;> rw [he]
    · obtain ⟨_, he⟩ | ⟨_, he⟩ := encodeFrame_cases body s <;> simp [he]
    · obtain ⟨_, he⟩ | ⟨_, _, he⟩ | ⟨_, _, _, he⟩ | ⟨_, _, _, he⟩ := decodeFrame_cases need value s <;> simp [he]
    · obtain ⟨_, he⟩ | ⟨_, _, _, he⟩ := execXfer_cases len s hidle <;> simp [he]
    · simp
    · simp

theorem rxByteStep_ne_refused (s : State) (r : Refusal) : rxByteStep s ≠ .refused r := by
  obtain ⟨_, he⟩ | ⟨_, _, _, _, _, he⟩ | ⟨b, rest, _, _, he⟩ := rxByteStep_cases s <;> rw [he]
  · simp
  · simp
  · obtain ⟨_, he⟩ | ⟨_, _, he⟩ | ⟨_, _, _, he⟩ | ⟨_, _, _, he⟩ :=
      acceptByte_cases b { s with rxq := rest } <;> simp [he]

theorem engineStep_ne_refused (a : WriteAnswer) (s : State) (r : Refusal) : engineStep a s ≠ .refused r := by
  obtain ⟨_, he⟩ | ⟨_, he⟩ | ⟨_, he⟩ := engineStep_cases a s <;> rw [he]
  · simp
  · obtain ⟨_, he⟩ | ⟨_, _, he⟩ | ⟨_, k, _, he⟩ := sendStep_cases a s <;> simp [he]
  · exact rxByteStep_ne_refused s r

theorem step_ne_refused (s : State) (r : Refusal) : step s ≠ .refused r := by
  obtain ⟨w, rest, _, _, he⟩ | ⟨_, he⟩ := step_cases s <;> rw [he]
  · obtain ⟨i, _, he⟩ | ⟨_, _, he⟩ := transferRequest_cases w { s with requests := rest } <;> rw [he]
    · exact exec_ne_refused i _ r
    · simp
  · obtain ⟨w, _, he⟩ | ⟨b, _, he⟩ | ⟨_, _, _, he⟩ | ⟨_, _, he⟩ | ⟨a, _, he⟩ | ⟨q, _, he⟩ :=
      environmentStep_cases s <;> rw [he]
    · simp
    · simp
    · exact rxByteStep_ne_refused s r
    · simp
    · exact engineStep_ne_refused a _ r
    · simp

/-! ### The statements -/

/-- Settles O48: each clause lists what the step's own rule says it keeps. -/
theorem accessMatrix : Obligations.AccessMatrix := by
  unfold Obligations.AccessMatrix
  refine ⟨fun i s t h => ?host, fun a s t h => ?send, fun s t h => ?rxByte, fun s => ?tick⟩
  case host =>
    obtain ⟨hframe, hacc, hrdata, hrvalid, haddr, hcall⟩ := exec_writes_only h
    have hkeeps := exec_hostKeeps h
    exact ⟨hframe, hacc, hrdata, hrvalid, haddr, hcall, hkeeps.rxbuf, hkeeps.rxcnt, hkeeps.timer, hkeeps.rxq,
      hkeeps.txs, hkeeps.requests, hkeeps.agenda, hkeeps.drawn, hkeeps.cfg⟩
  case send =>
    obtain ⟨hkeeps, hrxbuf, _⟩ := sendStep_keeps h
    exact ⟨hkeeps.addr, hkeeps.txbuf, hkeeps.txlen, hrxbuf, hkeeps.rxlen, hkeeps.rdata, hkeeps.rvalid, hkeeps.ack,
      hkeeps.requests, hkeeps.agenda, hkeeps.drawn, hkeeps.cfg⟩
  case rxByte =>
    obtain ⟨hkeeps, hatt, htxs⟩ := rxByteStep_keeps h
    exact ⟨hkeeps.addr, hkeeps.txbuf, hkeeps.txlen, hkeeps.rxlen, hatt, hkeeps.rdata, hkeeps.rvalid, htxs, hkeeps.ack,
      hkeeps.requests, hkeeps.agenda, hkeeps.drawn, hkeeps.cfg⟩
  case tick =>
    obtain ⟨hkeeps, hrxbuf, hatt, hrxq, htxs⟩ := tickStep_keeps s
    exact ⟨hkeeps.addr, hkeeps.txbuf, hkeeps.txlen, hrxbuf, hkeeps.rxlen, hatt, hkeeps.rdata, hkeeps.rvalid, hrxq, htxs,
      hkeeps.ack, hkeeps.requests, hkeeps.agenda, hkeeps.drawn, hkeeps.cfg⟩

/-- Settles O45: under the invariant every index is in its buffer, and no operation is without a meaning. -/
theorem machineNeverStops : Obligations.MachineNeverStops := by
  unfold Obligations.MachineNeverStops
  exact ⟨fun s hinv => hinv.step_next, step_ne_refused⟩

/-- Settles O29: an operation waits, and a step in a call is a move of the environment. -/
theorem requestsWaitDuringCall : Obligations.RequestsWaitDuringCall := by
  unfold Obligations.RequestsWaitDuringCall
  refine fun s hbusy => ⟨fun i => exec_busy i hbusy, fun t h => ?_⟩
  obtain ⟨_, _, hidle, _⟩ | ⟨_, he⟩ := step_cases s
  · exact absurd hidle hbusy
  · exact (environmentStep_requests_ack (he.symm.trans h)).1

/-- Settles O46: a transferred request that writes ADDR is SETADDR, whose word is its encoding; of the environment's moves
only reset does. -/
theorem addrChangesOnlyBySetaddr : Obligations.AddrChangesOnlyBySetaddr := by
  unfold Obligations.AddrChangesOnlyBySetaddr
  intro s t h hchanged
  obtain ⟨w, later, hidle, hrequests, he⟩ | ⟨_, he⟩ := step_cases s <;> rw [he] at h
  case inr => exact .inr ((environmentStep_addr h).resolve_left hchanged)
  case inl =>
    refine .inl ⟨hidle, later, ?_⟩
    obtain ⟨i, hdecode, he⟩ | ⟨_, _, he⟩ := transferRequest_cases w { s with requests := later } <;> rw [he] at h
    · obtain ⟨_, _, _, _, haddr, _⟩ := exec_writes_only h
      cases i with
      | setaddr v8 =>
        cases (exec_setaddr_idle v8 { s with requests := later } hidle).symm.trans h
        rw [hrequests, ← encode_of_decode hdecode]
        rfl
      | _ => exact absurd (haddr (by simp [Instr.mnemonic])) hchanged
    · cases h
      exact absurd rfl hchanged

end Sys2Proof.Machine
end

section
/-! SUPPORT. One step with its cause known: the oldest waiting request in IDLE, or the agenda's first move; and the
statements about the request channel, reset and the read ports. -/

namespace Sys2Proof.Machine

open Sys2Proof.Config

/-! ### The transfer of a request -/

theorem step_transfer {s : State} {w : Desc} {later : List Desc} (hidle : s.fsm = .idle)
    (hrequests : s.requests = w :: later) : step s = transferRequest w { s with requests := later } := by
  rw [step, fetchRequest_idle_cons s w later hidle hrequests]

theorem transferRequest_ok {w : Desc} {i : Instr} (h : decode w = .ok i) (s : State) :
    transferRequest w s = exec i s := by
  rw [transferRequest, h]

theorem transferRequest_error {w : Desc} {why : Reject} (h : decode w = .error why) (s : State) :
    transferRequest w s = .next (badReq s) := by
  rw [transferRequest, h]

/-- The transfer of an operation's own descriptor. -/
theorem step_encode {s : State} {i : Instr} {later : List Desc} (hidle : s.fsm = .idle)
    (hrequests : s.requests = encode i :: later) : step s = exec i { s with requests := later } := by
  rw [step_transfer hidle hrequests, transferRequest_ok (decode_encode i)]

/-- Whatever a transferred request does, the environment, RXQ and the parameters are not its (R46). -/
theorem transferRequest_hostKeeps {w : Desc} {s t : State} (h : transferRequest w s = .next t) : s.HostKeeps t := by
  obtain ⟨i, _, he⟩ | ⟨_, _, he⟩ := transferRequest_cases w s <;> rw [he] at h
  · exact exec_hostKeeps h
  · cases h
    exact ⟨rfl, rfl, rfl, rfl, rfl, rfl, rfl, rfl, rfl⟩

/-- In IDLE the host's requests are transferred one after another, until none waits or a call has started (log 2). -/
theorem transfers_until_call_or_none {s : State} (hwf : s.BuffersWf) :
    ∃ n t, n ≤ s.requests.length ∧ stepsFrom n s = some t ∧ t.requests = s.requests.drop n ∧
      (t.fsm ≠ .idle ∨ t.requests = []) ∧ t.agenda = s.agenda ∧ t.rxq = s.rxq ∧ t.cfg = s.cfg ∧ t.drawn = s.drawn := by
  generalize hrequests : s.requests = requests
  induction requests generalizing s with
  | nil => exact ⟨0, s, le_rfl, rfl, hrequests, .inr hrequests, rfl, rfl, rfl, rfl⟩
  | cons w later ih =>
    by_cases hidle : s.fsm = .idle
    case neg => exact ⟨0, s, Nat.zero_le _, rfl, hrequests, .inl hidle, rfl, rfl, rfl, rfl⟩
    case pos =>
      obtain ⟨u, hu⟩ := transferRequest_next w (s := { s with requests := later }) hwf
      have hstep : step s = .next u := (step_transfer hidle hrequests).trans hu
      have hkeeps := transferRequest_hostKeeps hu
      obtain ⟨n, t, hn, hrun, hleft, hstop, hagenda, hrxq, hcfg, hdrawn⟩ :=
        ih (step_keeps_buffers s u hwf hstep) hkeeps.requests
      exact ⟨n + 1, t, Nat.succ_le_succ hn, (stepsFrom_succ n hstep).trans hrun, hleft, hstop,
        hagenda.trans hkeeps.agenda, hrxq.trans hkeeps.rxq, hcfg.trans hkeeps.cfg, hdrawn.trans hkeeps.drawn⟩

/-- What a transferred request does to the call: nothing, unless it is an accepted XFER (R150). -/
theorem transferRequest_starts_call_or_not {w : Desc} {s t : State} (hidle : s.fsm = .idle)
    (h : transferRequest w s = .next t) :
    t.fsm = s.fsm ∧ t.rxlen = s.rxlen ∨
    ∃ len, w = encode (.xfer len) ∧ s.txlen ≠ 0#4 ∧ s.cfg.minRxLen ≤ len.toNat ∧ len.toNat ≤ s.cfg.maxFrame ∧
      t = { s with
        rxlen := len, att := 0#4, res := .none, rvalid := false, fsm := .send, ack := some .accepted } := by
  obtain ⟨i, hdecode, he⟩ | ⟨_, _, he⟩ := transferRequest_cases w s <;> rw [he] at h
  case inr =>
    cases h
    exact .inl ⟨rfl, rfl⟩
  case inl =>
    obtain ⟨_, _, _, _, _, hcall⟩ := exec_writes_only h
    cases i with
    | xfer len =>
      obtain ⟨_, he⟩ | ⟨hframe, hmin, hmax, he⟩ := execXfer_cases len s hidle <;> cases he.symm.trans h
      · exact .inl ⟨rfl, rfl⟩
      · exact .inr ⟨len, (encode_of_decode hdecode).symm, hframe, hmin, hmax, rfl⟩
    | _ =>
      obtain ⟨hlen, _, hfsm, _⟩ := hcall (by simp [Instr.mnemonic])
      exact .inl ⟨hfsm, hlen⟩

/-! ### The agenda's first move -/

section
variable {s : State} {moves : List Move} (hwaiting : s.fsm ≠ .idle ∨ s.requests = [])
include hwaiting

theorem step_environment : step s = environmentStep s := by
  obtain ⟨w, rest, hidle, hrequests, _⟩ | ⟨_, he⟩ := step_cases s
  · simp [hidle, hrequests] at hwaiting
  · exact he

theorem step_append {b : Byte} (hagenda : s.agenda = .append b :: moves) :
    step s = .next { s with agenda := moves, rxq := s.rxq ++ [b] } := by
  rw [step_environment hwaiting, environmentStep, s.nextMove_cons_agenda _ _ hagenda,
    s.dropMove_cons_agenda _ _ hagenda]
  rfl

theorem step_reset {queued : List Byte} (hagenda : s.agenda = .reset queued :: moves) :
    step s = .next { State.initial s.cfg queued with requests := s.requests, agenda := moves, drawn := s.drawn } := by
  rw [step_environment hwaiting, environmentStep, s.nextMove_cons_agenda _ _ hagenda,
    s.dropMove_cons_agenda _ _ hagenda]
  rfl

/-- A TICK that no queued byte holds back (R158, R159). -/
theorem step_tick (hagenda : s.agenda = .tick :: moves) (hfree : s.receiving = false ∨ s.rxq = []) :
    step s = .next (tickStep { s with agenda := moves }) := by
  rw [step_environment hwaiting]
  have hmove := s.nextMove_cons_agenda _ _ hagenda
  obtain ⟨_, h, _⟩ | ⟨_, h, _⟩ | ⟨_, hr, hq, _⟩ | ⟨_, _, he⟩ | ⟨_, h, _⟩ | ⟨_, h, _⟩ := environmentStep_cases s
  · cases hmove.symm.trans h
  · cases hmove.symm.trans h
  · simp [hr, hq] at hfree
  · rw [he, s.dropMove_cons_agenda _ _ hagenda]
  · cases hmove.symm.trans h
  · cases hmove.symm.trans h

/-- A TICK that a queued byte holds back: the byte is examined and the TICK stays next (R159, log 16). -/
theorem step_tick_held (hagenda : s.agenda = .tick :: moves) (hreceiving : s.fsm = .sync ∨ s.fsm = .accum)
    (hq : s.rxq ≠ []) : step s = rxByteStep s := by
  have havail : (s.receiving && s.rxAvail) = true := by simp [hreceiving, hq]
  rw [step_environment hwaiting, environmentStep, s.nextMove_cons_agenda _ _ hagenda]
  simp only [havail, if_true]

end

theorem State.receiving_eq_false {s : State} (h : s.fsm = .idle ∨ s.fsm = .send) : s.receiving = false := by
  rw [← Bool.not_eq_true, State.receiving_iff]
  rcases h with h | h <;> simp [h]

theorem tickStep_not_receiving {s : State} (h : s.fsm = .idle ∨ s.fsm = .send) : tickStep s = s := by
  rw [tickStep, State.receiving_eq_false h]
  simp only [Bool.false_eq_true, if_false]

section
variable {s : State} (hreceiving : s.fsm = .sync ∨ s.fsm = .accum)
include hreceiving

theorem tickStep_counts (hintime : s.timer.toNat + 1 ≤ s.cfg.timeoutTicks) :
    tickStep s = { s with timer := s.timer + 1#16 } := by
  obtain ⟨hr, _⟩ | ⟨_, _, he⟩ | ⟨_, hlate, _⟩ := tickStep_cases s
  · simp [← Bool.not_eq_true, hreceiving] at hr
  · simpa [BitVec.ofNat_add] using he
  · omega

theorem tickStep_timesOut (hlate : s.cfg.timeoutTicks < s.timer.toNat + 1) :
    tickStep s = attemptFail .timeout { s with timer := s.timer + 1#16 } := by
  obtain ⟨hr, _⟩ | ⟨_, hintime, _⟩ | ⟨_, _, he⟩ := tickStep_cases s
  · simp [← Bool.not_eq_true, hreceiving] at hr
  · omega
  · simpa [BitVec.ofNat_add] using he

end

/-! ### BADREQ -/

/-- An operation carried out under the invariant is refused for a value of XFER, for want of a frame to send, or for a
result too short; DEC_STATUS never is, since no legal length is below 3 (R110, R104, R140). -/
theorem exec_badReq_iff {s t : State} {i : Instr} (hinv : s.Inv) (hidle : s.fsm = .idle) (h : exec i s = .next t) :
    (t.ack = some .badReq ↔
      (∃ len, i = .xfer len ∧ (s.txlen = 0#4 ∨ len.toNat < s.cfg.minRxLen ∨ s.cfg.maxFrame < len.toNat)) ∨
      (s.res = .ok ∧ (i = .decI16 ∧ s.rxlen.toNat < 4 ∨ i = .decI32 ∧ s.rxlen.toNat < 6 ∨
        i = .decPos64 ∧ s.rxlen.toNat < 8))) ∧
    (t.ack = some .badReq → t = badReq s) := by
  have encoded : ∀ {body}, exec i s = encodeFrame body s → t.ack = some .accepted := by
    intro body he
    obtain ⟨_, he'⟩ | ⟨_, he'⟩ := encodeFrame_cases body s <;> cases (he.trans he').symm.trans h
    rfl
  have decoded : ∀ {need value}, exec i s = decodeFrame need value s →
      (t.ack = some .badReq ↔ s.res = .ok ∧ s.rxlen.toNat < need) ∧ (t.ack = some .badReq → t = badReq s) := by
    intro need value he
    obtain ⟨hres, he'⟩ | ⟨hok, hshort, he'⟩ | ⟨_, _, _, he'⟩ | ⟨_, henough, _, he'⟩ :=
      decodeFrame_cases need value s <;> cases (he.trans he').symm.trans h
    · simp [hres]
    · simp [hok, hshort, badReq]
    · simp [henough]
  cases i with
  | encS cmd => simp [encoded (exec_encS_eq hidle cmd)]
  | encP8 cmd v8 => simp [encoded (exec_encP8_eq hidle cmd v8)]
  | encP16 cmd v16 => simp [encoded (exec_encP16_eq hidle cmd v16)]
  | encP8P32 cmd v8 v32 => simp [encoded (exec_encP8P32_eq hidle cmd v8 v32)]
  | decI16 => simpa using decoded (exec_decI16_idle hidle)
  | decI32 => simpa using decoded (exec_decI32_idle hidle)
  | decPos64 => simpa using decoded (exec_decPos64_idle hidle)
  | decStatus =>
    have hnever : ¬ (s.res = .ok ∧ s.rxlen.toNat < 3) := by
      rintro ⟨hok, hshort⟩
      have hmin := hinv.minRxLen_le_rxlen_of_ok hok
      obtain ⟨⟨⟨_, _, _, _, _, _, _, _, hleast, _⟩, _⟩, _⟩ := hinv
      omega
    simpa [hnever] using decoded (exec_decStatus_idle s hidle)
  | setaddr v8 =>
    cases (exec_setaddr_idle v8 s hidle).symm.trans h
    simp
  | csumClr =>
    cases (exec_csumClr_idle s hidle).symm.trans h
    simp
  | csumAdd v8 =>
    cases (exec_csumAdd_idle v8 s hidle).symm.trans h
    simp
  | xfer len =>
    by_cases hbad : s.txlen = 0#4 ∨ len.toNat < s.cfg.minRxLen ∨ s.cfg.maxFrame < len.toNat
    · cases (exec_xfer_refused hidle hbad).symm.trans h
      simp [badReq, hbad]
    · have hgood := hbad
      simp only [not_or, not_lt] at hgood
      obtain ⟨hframe, hmin, hmax⟩ := hgood
      cases (exec_xfer_starts hidle hframe hmin hmax).symm.trans h
      simp [hbad]

theorem encode_inj {i j : Instr} : encode i = encode j ↔ i = j := by
  refine ⟨fun h => ?_, fun h => by rw [h]⟩
  have hi := decode_encode i
  rw [h, decode_encode j] at hi
  exact (Except.ok.inj hi).symm

/-! ### The parts of STATUS (R34) -/

theorem State.status_busy (s : State) : s.status.getLsbD 0 = s.busy := by
  simp only [State.status, BitVec.getLsbD_append]
  simp

theorem State.status_res (s : State) : s.status.extractLsb' 1 2 = s.res.code := by
  ext k hk
  simp only [State.status, BitVec.getElem_extractLsb', BitVec.getLsbD_append]
  grind

theorem State.status_synced (s : State) : s.status.getLsbD 3 = s.synced := by
  simp only [State.status, BitVec.getLsbD_append]
  simp

theorem State.status_att (s : State) : s.status.extractLsb' 4 4 = s.att := by
  ext k hk
  simp only [State.status, BitVec.getElem_extractLsb', BitVec.getLsbD_append]
  grind

/-! ### The statements -/

/-- Settles O30: `step` transfers the oldest request, which `withFetchWord` makes the given word. -/
theorem stepRunsDecodedRequest : Obligations.StepRunsDecodedRequest := by
  unfold Obligations.StepRunsDecodedRequest
  refine ⟨fun s w later i hidle hrequests hdecode => ?waiting, fun s nbits w i hidle hdecode => ?presented⟩
  case waiting => rw [step_transfer hidle hrequests, transferRequest_ok hdecode]
  case presented =>
    have hword : decode (descOfTable nbits w) = .ok i := by
      unfold decodeTableWord at hdecode
      split at hdecode
      · cases hd : decode (descOfTable nbits w) with
        | ok j => simp_all
        | error why => simp [hd] at hdecode
      · cases hdecode
    exact (step_transfer (s := s.withFetchWord nbits w) hidle rfl).trans (transferRequest_ok hword s)

/-- Settles O27: each of the three grounds makes the decoder reject the word. -/
theorem reservedWordsAreRefused : Obligations.ReservedWordsAreRefused := by
  unfold Obligations.ReservedWordsAreRefused
  intro s w later hidle hrequests hreserved
  obtain ⟨why, hwhy⟩ := decode_error_of_reserved hreserved
  rw [step_transfer hidle hrequests, transferRequest_error hwhy]
  rfl

/-- Settles O28: a rejected word is the first reason, and the rest are those of the operation a word decodes to, known by
its encoding; in a call only the environment moves. -/
theorem badReqHasExactlyFourReasons : Obligations.BadReqHasExactlyFourReasons := by
  unfold Obligations.BadReqHasExactlyFourReasons
  intro s t hinv h
  refine ⟨fun w later hidle hrequests => ?taken, fun hbusy => ?waits⟩
  case waits =>
    rw [step_environment (.inl hbusy)] at h
    exact environmentStep_requests_ack h
  case taken =>
    rw [step_transfer hidle hrequests] at h
    rw [selected_by_no_row_iff]
    cases hdecode : decode w with
    | error why =>
      rw [transferRequest_error hdecode] at h
      cases h
      simp [badReq, State.acknowledge]
    | ok i =>
      rw [transferRequest_ok hdecode] at h
      obtain ⟨hreasons, hkept⟩ := exec_badReq_iff (s := { s with requests := later }) hinv hidle h
      refine ⟨?_, hkept⟩
      rw [hreasons, ← encode_of_decode hdecode]
      simp only [encode_inj]
      constructor
      · rintro (⟨len, rfl, hframe | hlen⟩ | hshort)
        · exact .inr (.inr (.inl ⟨len, rfl, hframe⟩))
        · exact .inr (.inl ⟨len, rfl, hlen⟩)
        · exact .inr (.inr (.inr hshort))
      · rintro (⟨_, hno⟩ | ⟨len, rfl, hlen⟩ | ⟨len, rfl, hframe⟩ | hshort)
        · cases hno
        · exact .inl ⟨len, rfl, .inr hlen⟩
        · exact .inl ⟨len, rfl, .inl hframe⟩
        · exact .inr hshort

/-- Settles O32: in a call or with no request waiting the append is the next step; in IDLE it is so once the requests are
transferred. -/
theorem linkAppendsAnyByte : Obligations.LinkAppendsAnyByte := by
  unfold Obligations.LinkAppendsAnyByte
  refine fun s b moves hagenda => ⟨fun hwaiting => step_append hwaiting hagenda, fun _ hwf => ?_⟩
  obtain ⟨n, t, hn, hrun, hrequests, hstop, hagenda', hrxq, _, _⟩ := transfers_until_call_or_none hwf
  exact ⟨n, t, hn, hrun, hrequests, by rw [step_append hstop (hagenda'.trans hagenda), hrxq]⟩

/-- Settles O3, as O32: the next step, or the one after the transfers. -/
theorem hardwareResetRestoresResetState : Obligations.HardwareResetRestoresResetState := by
  unfold Obligations.HardwareResetRestoresResetState
  refine fun s queued moves hagenda => ⟨fun hwaiting => step_reset hwaiting hagenda, fun _ hwf => ?_⟩
  obtain ⟨n, t, hn, hrun, hrequests, hstop, hagenda', _, hcfg, hdrawn⟩ := transfers_until_call_or_none hwf
  exact ⟨n, t, hn, hrun, hrequests, by rw [step_reset hstop (hagenda'.trans hagenda), hcfg, hdrawn]⟩

/-- Settles O31: TICK counts only while receiving, and no engine step is enabled in IDLE. -/
theorem idleBlockTakesNoStep : Obligations.IdleBlockTakesNoStep := by
  unfold Obligations.IdleBlockTakesNoStep
  rintro s m moves hidle hrequests hagenda (rfl | ⟨a, rfl⟩)
  · rw [step_tick (.inr hrequests) hagenda (.inl (State.receiving_eq_false (.inl hidle))),
      tickStep_not_receiving (s := { s with agenda := moves }) (.inl hidle)]
  · rw [step_environment (.inr hrequests), environmentStep, s.nextMove_cons_agenda _ _ hagenda,
      s.dropMove_cons_agenda _ _ hagenda]
    simp only [engineStep, hidle]

/-- Settles O37: TICK's three cases, the last by whether attempts are left. -/
theorem tickCountsAndTimesOut : Obligations.TickCountsAndTimesOut := by
  unfold Obligations.TickCountsAndTimesOut
  intro s moves hinv hagenda hwaiting u
  refine ⟨fun hquiet => ?quiet, fun hreceiving hq => ?receiving⟩
  case quiet =>
    rw [step_tick hwaiting hagenda (.inl (State.receiving_eq_false hquiet)), tickStep_not_receiving (s := u) hquiet]
  case receiving =>
    have hstep : step s = .next (tickStep u) := step_tick hwaiting hagenda (.inr hq)
    refine ⟨fun hintime => ?_, fun hlate hleft => ?_, fun hlate hspent => ?_⟩
    · rw [hstep, tickStep_counts (s := u) hreceiving hintime]
    · rw [hstep, tickStep_timesOut (s := u) hreceiving hlate]
      exact congrArg _ (attemptFail_retries .timeout hleft)
    · rw [hstep, tickStep_timesOut (s := u) hreceiving hlate]
      exact congrArg _ (attemptFail_ends .timeout hspent.ge)

/-- Settles O39: SEND empties RXQ before anything reads it (R74). -/
theorem sendIsABarrier : Obligations.SendIsABarrier := by
  unfold Obligations.SendIsABarrier
  intro s a moves queued hsend hagenda
  rw [step_engine_send hagenda hsend, step_engine_send (s := { s with rxq := queued }) hagenda hsend]
  cases a <;> rfl

/-- Settles O33: STATUS is its four parts side by side. -/
theorem readPortsShowTheState : Obligations.ReadPortsShowTheState := by
  unfold Obligations.ReadPortsShowTheState
  intro s
  refine ⟨?_, ?_, ?_, s.status_att, rfl, rfl, ?_, ?_, rfl⟩
  · rw [s.status_busy]
    simp [State.busy, State.ready]
  · rw [s.status_res]
    cases s.res <;> rfl
  · rw [s.status_synced]
    simp [State.synced]
  · cases h : s.rvalid <;> simp [State.ports, h]
  · cases h : s.fsm <;> simp [State.ports, State.ready, h]

/-- Settles O2: at reset TXLEN is 0, and RES is NONE. -/
theorem afterResetNothingToSendOrRead : Obligations.AfterResetNothingToSendOrRead := by
  unfold Obligations.AfterResetNothingToSendOrRead
  refine ⟨rfl, rfl, fun len => exec_xfer_refused rfl (.inl rfl), ?_⟩
  have hnone : ∀ need value, decodeFrame need value State.reset = .next { State.reset with ack := some .accepted } :=
    fun _ _ => rfl
  simp only [List.forall_mem_cons, List.not_mem_nil, false_imp_iff, implies_true, and_true]
  exact ⟨(exec_decStatus_idle _ rfl).trans (hnone _ _), (exec_decI16_idle rfl).trans (hnone _ _),
    (exec_decI32_idle rfl).trans (hnone _ _), (exec_decPos64_idle rfl).trans (hnone _ _)⟩

end Sys2Proof.Machine
end

section
/-! SUPPORT. Everything one step of a call can do, short of reset (R150 to R165), as an inductive relation with a case per
kind of step. -/

namespace Sys2Proof.Machine

open Sys2Proof.Config

/-! ### One byte while receiving -/

/-- What examining the byte `b` does while receiving: `u` is the state without it (R155). -/
inductive State.Examines (u : State) (b : Byte) : State → Prop
  /-- nothing accepted yet, and no ADDR -/
  | discards (hsync : u.fsm = .sync) (hb : b ≠ u.addr) : u.Examines b u
  /-- a byte of the frame, not its last -/
  | collects (haddr : u.fsm = .sync → b = u.addr) (hmore : u.rxcnt.toNat + 1 < u.rxlen.toNat) :
      u.Examines b { u with
        rxbuf := u.rxbuf.set u.rxcnt.toNat b, timer := 0#16, acc := u.acc + b, rxcnt := u.rxcnt + 1#4, fsm := .accum }
  /-- the last byte, and it is the sum -/
  | completes (haccum : u.fsm = .accum) (hlast : u.rxcnt.toNat + 1 = u.rxlen.toNat) (hsum : u.acc = b) :
      u.Examines b { u with
        rxbuf := u.rxbuf.set u.rxcnt.toNat b, timer := 0#16, rxcnt := u.rxlen, res := .ok, fsm := .idle }
  /-- the last byte, and it is not the sum -/
  | startsOver (haccum : u.fsm = .accum) (hlast : u.rxcnt.toNat + 1 = u.rxlen.toNat) (hsum : b ≠ u.acc) :
      u.Examines b { u with
        rxbuf := u.rxbuf.set u.rxcnt.toNat b, timer := 0#16, rxcnt := 0#4, acc := 0#8, fsm := .sync }

/-- A frame has at least 3 bytes, so its last byte finds others accepted (R9, R38 (b)). -/
theorem State.Inv.accum_of_last {s : State} (hinv : s.Inv) (hreceiving : s.fsm = .sync ∨ s.fsm = .accum)
    (hlast : s.rxcnt.toNat + 1 = s.rxlen.toNat) : s.fsm = .accum := by
  refine hreceiving.resolve_left fun hfsm => ?_
  obtain ⟨⟨⟨_, _, _, _, _, _, _, _, hleast, _⟩, _⟩, _, hsync, _, hbusy, _⟩ := hinv
  obtain ⟨hcnt, _⟩ := hsync hfsm
  obtain ⟨_, _, _, hmin, _⟩ := hbusy (by simp [hfsm])
  simp only [hcnt, BitVec.toNat_ofNat] at hlast
  omega

/-- Nothing is accepted exactly in SYNC (R38 (b), (c)). -/
theorem State.Inv.rxcnt_eq_zero_iff {s : State} (hinv : s.Inv) (hreceiving : s.fsm = .sync ∨ s.fsm = .accum) :
    s.rxcnt = 0#4 ↔ s.fsm = .sync := by
  obtain ⟨_, _, hsync, haccum, _⟩ := hinv
  refine ⟨fun hcnt => hreceiving.resolve_right fun hfsm => ?_, fun hfsm => (hsync hfsm).1⟩
  obtain ⟨hpos, _⟩ := haccum hfsm
  simp [hcnt] at hpos

theorem State.Inv.rxByteStep_examines {s : State} (hinv : s.Inv) (hreceiving : s.fsm = .sync ∨ s.fsm = .accum)
    {b : Byte} {rest : List Byte} (hq : s.rxq = b :: rest) :
    ∃ t, rxByteStep s = .next t ∧ State.Examines { s with rxq := rest } b t := by
  have hroom := hinv.rxcnt_lt_rxbuf_length hreceiving
  have hcnt := hinv.rxcnt_lt_rxlen hreceiving
  have hzero := hinv.rxcnt_eq_zero_iff hreceiving
  by_cases hdiscard : s.rxcnt = 0#4 ∧ b ≠ s.addr
  · obtain ⟨hnone, hb⟩ := hdiscard
    exact ⟨_, rxByteStep_discards hq hnone hb, .discards (hzero.mp hnone) hb⟩
  · have haccept : s.rxcnt ≠ 0#4 ∨ b = s.addr := by rwa [not_and_or, not_not] at hdiscard
    rw [rxByteStep_accepts hq haccept]
    obtain hmore | hlast : s.rxcnt.toNat + 1 < s.rxlen.toNat ∨ s.rxcnt.toNat + 1 = s.rxlen.toNat := by omega
    · refine ⟨_, acceptByte_extends (s := { s with rxq := rest }) hroom hmore, .collects (fun hsync => ?_) hmore⟩
      exact haccept.resolve_left (fun hne => hne (hzero.mpr hsync))
    · have haccum := hinv.accum_of_last hreceiving hlast
      by_cases hsum : s.acc = b
      · exact ⟨_, acceptByte_completes (s := { s with rxq := rest }) hroom hlast hsum, .completes haccum hlast hsum⟩
      · exact ⟨_, acceptByte_startsOver (s := { s with rxq := rest }) hroom hlast hsum,
          .startsOver haccum hlast (Ne.symm hsum)⟩

/-! ### One step of a call -/

/-- Everything a step of a call can do, short of reset. The agenda and the moves drawn from the free stream (log 1) are
the environment's and stand as `moves` and `drawn`. -/
inductive State.CallStep (s : State) : State → Prop
  /-- nothing happens to the block but that the host may present a request and the link append a byte -/
  | passes (moves : List Move) (drawn : Nat) (requests : List Desc) (rxq : List Byte) (hsends : s.sends = false)
      (hfails : s.failsAttempt = false) :
      s.CallStep { s with agenda := moves, drawn := drawn, requests := requests, rxq := rxq }
  /-- R152 with the answer ok -/
  | sends (moves : List Move) (drawn : Nat) (hfsm : s.fsm = .send) (hmove : s.nextMove = .engine .ok) :
      s.CallStep { s with
        agenda := moves, drawn := drawn, att := s.att + 1#4, rxq := [], rxcnt := 0#4, acc := 0#8,
        txs := s.txs ++ s.txFrame, timer := 0#16, fsm := .sync }
  /-- R152 with a write error -/
  | writeFails (moves : List Move) (drawn k : Nat) (hfsm : s.fsm = .send) (hmove : s.nextMove = .engine (.err k)) :
      s.CallStep (attemptFail .write { s with
        agenda := moves, drawn := drawn, att := s.att + 1#4, rxq := [], rxcnt := 0#4, acc := 0#8,
        txs := s.txs ++ s.txFrame.take k })
  /-- R155, in the engine's turn or because a TICK is held (R159) -/
  | examines (moves : List Move) (drawn : Nat) (b : Byte) (rest : List Byte) (t : State)
      (hreceiving : s.fsm = .sync ∨ s.fsm = .accum) (hq : s.rxq = b :: rest)
      (hmove : s.nextMove = .tick ∨ ∃ a, s.nextMove = .engine a)
      (ht : State.Examines { s with agenda := moves, drawn := drawn, rxq := rest } b t) : s.CallStep t
  /-- R158, within the timeout -/
  | counts (moves : List Move) (drawn : Nat) (hreceiving : s.fsm = .sync ∨ s.fsm = .accum)
      (hmove : s.nextMove = .tick) (hq : s.rxq = []) (hintime : s.timer.toNat + 1 ≤ s.cfg.timeoutTicks) :
      s.CallStep { s with agenda := moves, drawn := drawn, timer := s.timer + 1#16 }
  /-- R158, past the timeout -/
  | timesOut (moves : List Move) (drawn : Nat) (hreceiving : s.fsm = .sync ∨ s.fsm = .accum)
      (hmove : s.nextMove = .tick) (hq : s.rxq = []) (hlate : s.cfg.timeoutTicks < s.timer.toNat + 1) :
      s.CallStep (attemptFail .timeout { s with agenda := moves, drawn := drawn, timer := s.timer + 1#16 })

/-- Taking a move changes the environment's two fields alone. -/
theorem State.dropMove_eq (s : State) : ∃ moves drawn, s.dropMove = { s with agenda := moves, drawn := drawn } := by
  unfold State.dropMove
  split
  · exact ⟨_, _, rfl⟩
  · exact ⟨_, _, rfl⟩

/-- A TICK that is not held. -/
theorem State.callStep_of_tick {s : State} (hbusy : s.fsm ≠ .idle) (moves : List Move) (drawn : Nat)
    (hmove : s.nextMove = .tick) (hfree : s.receiving = false ∨ s.rxq = []) :
    s.CallStep (tickStep { s with agenda := moves, drawn := drawn }) := by
  obtain hsend | hreceiving : s.fsm = .send ∨ s.fsm = .sync ∨ s.fsm = .accum := by
    cases hfsm : s.fsm <;> simp [hfsm] at hbusy ⊢
  · rw [tickStep_not_receiving (s := { s with agenda := moves, drawn := drawn }) (.inr hsend)]
    exact .passes moves drawn s.requests s.rxq (by simp [State.sends, hmove])
      (by simp [State.failsAttempt, hmove, State.receiving_eq_false (.inr hsend)])
  · have hq : s.rxq = [] := hfree.resolve_left (by simp [hreceiving])
    obtain hintime | hlate := Nat.lt_or_ge s.cfg.timeoutTicks (s.timer.toNat + 1) |>.symm
    · rw [tickStep_counts (s := { s with agenda := moves, drawn := drawn }) hreceiving hintime]
      exact .counts moves drawn hreceiving hmove hq hintime
    · rw [tickStep_timesOut (s := { s with agenda := moves, drawn := drawn }) hreceiving hlate]
      exact .timesOut moves drawn hreceiving hmove hq hlate

section
variable {s : State} (hinv : s.Inv) (hbusy : s.fsm ≠ .idle)
include hinv hbusy

/-- The engine's turn: SEND, or a byte examined if one is queued. -/
theorem State.Inv.callStep_of_engine {t : State} {a : WriteAnswer} (moves : List Move) (drawn : Nat)
    (hmove : s.nextMove = .engine a) (h : engineStep a { s with agenda := moves, drawn := drawn } = .next t) :
    s.CallStep t := by
  obtain ⟨hidle, _⟩ | ⟨hsend, he⟩ | ⟨hr, he⟩ := engineStep_cases a { s with agenda := moves, drawn := drawn }
  · exact absurd hidle hbusy
  · have hfits := hinv.txlen_le_txbuf_length
    rw [he] at h
    cases a with
    | ok =>
      cases (sendStep_ok (s := { s with agenda := moves, drawn := drawn }) hfits).symm.trans h
      exact .sends moves drawn hsend hmove
    | err k =>
      cases (sendStep_err (s := { s with agenda := moves, drawn := drawn }) hfits k).symm.trans h
      exact .writeFails moves drawn k hsend hmove
  · rw [he] at h
    have hreceiving : s.fsm = .sync ∨ s.fsm = .accum := (State.receiving_iff _).mp hr
    cases hq : s.rxq with
    | nil =>
      have hnone : rxByteStep { s with agenda := moves, drawn := drawn } =
          .next { s with agenda := moves, drawn := drawn } := by simp [rxByteStep, State.rxPop, hq]
      cases hnone.symm.trans h
      have hnosend : s.fsm ≠ .send := by rcases hreceiving with hf | hf <;> simp [hf]
      exact .passes moves drawn s.requests s.rxq (by simp [State.sends, hmove, hnosend])
        (by cases a <;> simp [State.failsAttempt, hmove, hnosend])
    | cons b rest =>
      obtain ⟨u, hu, hexamines⟩ :=
        State.Inv.rxByteStep_examines (s := { s with agenda := moves, drawn := drawn }) hinv hreceiving hq
      cases hu.symm.trans h
      exact .examines moves drawn b rest _ hreceiving hq (.inr ⟨a, hmove⟩) hexamines

theorem State.Inv.callStep_of_step {t : State} (hreset : ∀ queued, s.nextMove ≠ .reset queued)
    (h : step s = .next t) : s.CallStep t := by
  obtain ⟨moves, drawn, hdrop⟩ := s.dropMove_eq
  rw [step_environment (.inl hbusy)] at h
  obtain ⟨w, hmove, he⟩ | ⟨b, hmove, he⟩ | ⟨hmove, hr, hq, he⟩ | ⟨hmove, hfree, he⟩ | ⟨a, hmove, he⟩ |
    ⟨q, hmove, _⟩ := environmentStep_cases s
  case inr.inr.inr.inr.inr => exact absurd hmove (hreset q)
  all_goals rw [he] at h
  · rw [hdrop] at h
    cases h
    exact .passes moves drawn _ s.rxq (by simp [State.sends, hmove]) (by simp [State.failsAttempt, hmove])
  · rw [hdrop] at h
    cases h
    exact .passes moves drawn s.requests _ (by simp [State.sends, hmove]) (by simp [State.failsAttempt, hmove])
  · obtain ⟨b, rest, hq⟩ := List.exists_cons_of_ne_nil hq
    have hreceiving := s.receiving_iff.mp hr
    obtain ⟨u, hu, hexamines⟩ := hinv.rxByteStep_examines hreceiving hq
    cases hu.symm.trans h
    exact .examines s.agenda s.drawn b rest _ hreceiving hq (.inl hmove) hexamines
  · rw [hdrop] at h
    cases h
    exact s.callStep_of_tick hbusy moves drawn hmove hfree
  · rw [hdrop] at h
    exact hinv.callStep_of_engine hbusy moves drawn hmove h

end

end Sys2Proof.Machine
end

section
/-! SUPPORT. What follows from the kinds of steps a call has, and from those of IDLE: the end of a call, RXCNT's bound, the
count of attempts, and the statements about them. -/

namespace Sys2Proof.Machine

open Sys2Proof.Config

/-! ### The end of a call -/

/-- STATUS after a call that failed: RES's code in bits 2:1, no other bit but ATT's (R34, R198). -/
theorem State.status_of_failed {s : State} (hidle : s.fsm = .idle) :
    (s.res = .errTimeout → s.status = s.att ++ 0x4#4) ∧ (s.res = .errWrite → s.status = s.att ++ 0x6#4) := by
  rw [State.status, State.synced, State.busy, State.ready, hidle]
  generalize s.att = att
  constructor <;>
  · intro hres
    rw [hres]
    revert att
    decide

/-- What stands when a step ends a call, other than by reset: a validated frame that starts with ADDR, or the failure of
the last attempt (R161, R162). -/
theorem State.Inv.callStep_ends {s t : State} (hinv : s.Inv) (hbusy : s.fsm ≠ .idle) (hstep : s.CallStep t)
    (hidle : t.fsm = .idle) :
    t.rvalid = false ∧ t.rdata = s.rdata ∧ t.addr = s.addr ∧ t.txbuf = s.txbuf ∧ t.cfg = s.cfg ∧
    ((t.res = .ok ∧ t.rxcnt = t.rxlen ∧ byteAt t.rxbuf 0 = t.addr ∧ FrameOk t.rxbuf t.rxlen.toNat ∧
        t.acc = byteAt t.rxbuf (t.rxlen.toNat - 1) ∧ t.timer = 0#16 ∧ 1 ≤ t.att.toNat ∧
        t.att.toNat ≤ t.cfg.maxAttempts ∧ t.rxq = s.rxq.tail) ∨
      (t.rxcnt = 0#4 ∧ t.acc = 0#8 ∧ t.att.toNat = t.cfg.maxAttempts ∧
        (t.res = .errTimeout ∧ t.timer.toNat = t.cfg.timeoutTicks + 1 ∨ t.res = .errWrite ∧ t.timer = s.timer))) := by
  obtain ⟨_, _, ⟨_, hvalid, _⟩, hmax, _⟩ := hinv.callInv hbusy
  cases hstep with
  | passes => exact absurd hidle hbusy
  | sends => cases hidle
  | counts => exact absurd hidle hbusy
  | writeFails moves drawn k hsend hmove =>
    have hatt := hinv.att_add_one_of_send hsend
    obtain ⟨_, _, _, _, _, ⟨hleft, _⟩, _⟩ := id hinv
    have hroom := hleft hsend
    obtain ⟨_, he⟩ | ⟨hspent, he⟩ := attemptFail_cases .write { s with
        agenda := moves, drawn := drawn, att := s.att + 1#4, rxq := [], rxcnt := 0#4, acc := 0#8,
        txs := s.txs ++ s.txFrame.take k } <;> rw [he] at hidle ⊢
    · cases hidle
    · simp only at hspent
      exact ⟨hvalid, rfl, rfl, rfl, rfl, .inr ⟨rfl, rfl, by simp only; omega, .inr ⟨rfl, rfl⟩⟩⟩
  | timesOut moves drawn hreceiving hmove hq hlate =>
    have htimer := hinv.timer_le hreceiving
    have hcount := hinv.timer_add_one hreceiving
    obtain ⟨_, he⟩ | ⟨hspent, he⟩ := attemptFail_cases .timeout { s with
        agenda := moves, drawn := drawn, timer := s.timer + 1#16 } <;> rw [he] at hidle ⊢
    · cases hidle
    · simp only at hspent
      refine ⟨hvalid, rfl, rfl, rfl, rfl, .inr ⟨rfl, rfl, hmax.antisymm hspent, .inl ⟨rfl, ?_⟩⟩⟩
      rw [BitVec.ofNat_add, BitVec.ofNat_toNat, BitVec.setWidth_eq] at hcount
      simp only [hcount]
      omega
  | examines moves drawn b rest t hreceiving hq hmove ht =>
    cases ht with
    | discards => exact absurd hidle hbusy
    | collects => cases hidle
    | startsOver => cases hidle
    | completes haccum hlast hsum =>
      have hroom := hinv.rxcnt_lt_rxbuf_length hreceiving
      have haccept : s.rxcnt ≠ 0#4 ∨ b = s.addr :=
        .inl fun hzero => by simp [(hinv.rxcnt_eq_zero_iff hreceiving).mp hzero] at haccum
      refine ⟨hvalid, rfl, rfl, rfl, rfl, .inl ⟨rfl, rfl, hinv.byteAt_zero_stored hreceiving haccept,
        (hinv.frameOk_stored_iff hreceiving b hlast).mpr hsum, ?_, rfl,
        hinv.one_le_att hreceiving, hmax, by simp [hq]⟩⟩
      simp only at hlast hsum ⊢
      rw [← hlast, Nat.add_sub_cancel, byteAt_set_same _ _ b hroom, hsum]

/-! ### RXCNT -/

/-- A step of a call leaves RXCNT as it is with FSM, or within RXLEN; RXLEN it never writes (R20, R155). -/
theorem State.Inv.callStep_rxcnt {s t : State} (hinv : s.Inv) (hstep : s.CallStep t) :
    t.rxlen = s.rxlen ∧ t.cfg = s.cfg ∧
      (t.rxcnt = s.rxcnt ∧ t.fsm = s.fsm ∨ t.rxcnt.toNat ≤ s.rxlen.toNat) := by
  have failed : ∀ (cause : Cause) (u : State), (attemptFail cause u).rxlen = u.rxlen ∧
      (attemptFail cause u).cfg = u.cfg ∧ (attemptFail cause u).rxcnt = 0#4 := by
    intro cause u
    obtain ⟨_, he⟩ | ⟨_, he⟩ := attemptFail_cases cause u <;> rw [he] <;> exact ⟨rfl, rfl, rfl⟩
  cases hstep with
  | passes => exact ⟨rfl, rfl, .inl ⟨rfl, rfl⟩⟩
  | sends => exact ⟨rfl, rfl, .inr (Nat.zero_le _)⟩
  | counts => exact ⟨rfl, rfl, .inl ⟨rfl, rfl⟩⟩
  | writeFails =>
    obtain ⟨hlen, hcfg, hcnt⟩ := failed .write _
    exact ⟨hlen, hcfg, .inr (by rw [hcnt]; exact Nat.zero_le _)⟩
  | timesOut =>
    obtain ⟨hlen, hcfg, hcnt⟩ := failed .timeout _
    exact ⟨hlen, hcfg, .inr (by rw [hcnt]; exact Nat.zero_le _)⟩
  | examines moves drawn b rest t hreceiving hq hmove ht =>
    cases ht with
    | discards => exact ⟨rfl, rfl, .inl ⟨rfl, rfl⟩⟩
    | collects _ hmore =>
      exact ⟨rfl, rfl, .inr (by simp only [hinv.rxcnt_add_one hreceiving]; exact hmore.le)⟩
    | completes => exact ⟨rfl, rfl, .inr le_rfl⟩
    | startsOver => exact ⟨rfl, rfl, .inr (Nat.zero_le _)⟩

theorem State.Inv.step_rxcnt_of_busy {s t : State} (hinv : s.Inv) (hbusy : s.fsm ≠ .idle) (h : step s = .next t) :
    t.cfg = s.cfg ∧ (t.rxcnt = 0#4 ∨ t.rxlen = s.rxlen ∧
      (t.rxcnt = s.rxcnt ∧ t.fsm = s.fsm ∨ t.rxcnt.toNat ≤ s.rxlen.toNat)) := by
  by_cases hreset : ∃ q, s.nextMove = .reset q
  · obtain ⟨q, hmove⟩ := hreset
    rw [step_environment (.inl hbusy), environmentStep, hmove] at h
    cases h
    exact ⟨by simp, .inl (by simp)⟩
  · obtain ⟨hlen, hcfg, hcnt⟩ := hinv.callStep_rxcnt (hinv.callStep_of_step hbusy (not_exists.mp hreset) h)
    exact ⟨hcfg, .inr ⟨hlen, hcnt⟩⟩

/-! ### A step in IDLE -/

/-- In IDLE a move of the environment is reset, or changes nothing but RXQ and the environment's own fields. -/
theorem environmentStep_idle {s t : State} (hidle : s.fsm = .idle) (h : environmentStep s = .next t) :
    (∃ queued, s.nextMove = .reset queued ∧ t = hardwareReset queued s.dropMove) ∨
    ∃ moves drawn requests rxq,
      t = { s with agenda := moves, drawn := drawn, requests := requests, rxq := rxq } := by
  obtain ⟨moves, drawn, hdrop⟩ := s.dropMove_eq
  obtain ⟨w, _, he⟩ | ⟨b, _, he⟩ | ⟨_, hr, _⟩ | ⟨_, _, he⟩ | ⟨a, _, he⟩ | ⟨q, hmove, he⟩ := environmentStep_cases s
  case inr.inr.inr.inr.inr =>
    cases he.symm.trans h
    exact .inl ⟨q, hmove, rfl⟩
  case inr.inr.inl => simp [State.receiving_eq_false (.inl hidle)] at hr
  all_goals
    rw [he, hdrop] at h
    right
  · cases h
    exact ⟨_, _, _, _, rfl⟩
  · cases h
    exact ⟨_, _, _, _, rfl⟩
  · rw [tickStep_not_receiving (s := { s with agenda := moves, drawn := drawn }) (.inl hidle)] at h
    cases h
    exact ⟨_, _, s.requests, s.rxq, rfl⟩
  · obtain ⟨_, he⟩ | ⟨hsend, _⟩ | ⟨hr, _⟩ := engineStep_cases a { s with agenda := moves, drawn := drawn }
    · cases he.symm.trans h
      exact ⟨_, _, s.requests, s.rxq, rfl⟩
    · cases hidle.symm.trans hsend
    · simp [hidle] at hr

theorem step_rxcnt_of_idle {s t : State} (hidle : s.fsm = .idle) (h : step s = .next t) :
    t.cfg = s.cfg ∧ (t.rxcnt = 0#4 ∨ t.rxcnt = s.rxcnt ∧ (t.rxlen = s.rxlen ∨ t.fsm = .send)) := by
  obtain ⟨w, later, _, _, he⟩ | ⟨_, he⟩ := step_cases s <;> rw [he] at h
  case inr =>
    obtain ⟨q, _, rfl⟩ | ⟨_, _, _, _, rfl⟩ := environmentStep_idle hidle h
    · exact ⟨by simp, .inl (by simp)⟩
    · exact ⟨rfl, .inr ⟨rfl, .inl rfl⟩⟩
  case inl =>
    have hkeeps := transferRequest_hostKeeps h
    refine ⟨hkeeps.cfg, .inr ⟨hkeeps.rxcnt, ?_⟩⟩
    obtain ⟨_, hlen⟩ | ⟨len, _, _, _, _, rfl⟩ :=
      transferRequest_starts_call_or_not (s := { s with requests := later }) hidle h
    · exact .inl hlen
    · exact .inr rfl

/-! ### The attempts of a call -/

/-- How many attempts of the call have failed: all those counted by ATT, less the one that is receiving or succeeded
(R31, R154). -/
def State.failedAttempts (s : State) : Nat :=
  match s.fsm with
  | .send => s.att.toNat
  | .sync => s.att.toNat - 1
  | .accum => s.att.toNat - 1
  | .idle => if s.res = .ok then s.att.toNat - 1 else s.att.toNat

theorem State.failedAttempts_receiving {s : State} (h : s.fsm = .sync ∨ s.fsm = .accum) :
    s.failedAttempts = s.att.toNat - 1 := by
  rcases h with h | h <;> simp [State.failedAttempts, h]

theorem attemptFail_failedAttempts (cause : Cause) (s : State) :
    (attemptFail cause s).failedAttempts = s.att.toNat := by
  obtain ⟨_, he⟩ | ⟨_, he⟩ := attemptFail_cases cause s <;> rw [he]
  · rfl
  · cases cause <;> rfl

/-- Examining a byte is no SEND, and it fails no attempt: a queued byte holds back a TICK (R159). -/
theorem State.no_send_no_failure {s : State} (hreceiving : s.fsm = .sync ∨ s.fsm = .accum) (hq : s.rxq ≠ [])
    (hmove : s.nextMove = .tick ∨ ∃ a, s.nextMove = .engine a) : s.sends = false ∧ s.failsAttempt = false := by
  have hnosend : s.fsm ≠ .send := by rcases hreceiving with h | h <;> simp [h]
  have havail : s.rxAvail = true := s.rxAvail_iff.mpr hq
  obtain hmove | ⟨a, hmove⟩ := hmove
  · simp [State.sends, State.failsAttempt, hmove, havail]
  · cases a <;> simp [State.sends, State.failsAttempt, hmove, hnosend]

/-- ATT counts the SEND steps, and `failedAttempts` the steps that fail an attempt. -/
theorem State.Inv.callStep_counts {s t : State} (hinv : s.Inv) (hstep : s.CallStep t) :
    t.att.toNat = s.att.toNat + s.sends.toNat ∧ t.failedAttempts = s.failedAttempts + s.failsAttempt.toNat := by
  cases hstep with
  | passes moves drawn requests rxq hsends hfails => exact ⟨by simp [hsends], by simp [hfails, State.failedAttempts]⟩
  | sends moves drawn hsend hmove =>
    have hatt := hinv.att_add_one_of_send hsend
    exact ⟨by simp [State.sends, hmove, hsend, hatt],
      by simp [State.failsAttempt, State.failedAttempts, hmove, hsend, hatt]⟩
  | writeFails moves drawn k hsend hmove =>
    have hatt := hinv.att_add_one_of_send hsend
    refine ⟨?_, ?_⟩
    · rw [(attemptFail_keeps _ _).2.2.1]
      simp [State.sends, hmove, hsend, hatt]
    · rw [attemptFail_failedAttempts]
      simp [State.failsAttempt, State.failedAttempts, hmove, hsend, hatt]
  | counts moves drawn hreceiving hmove hq hintime =>
    have hnolate : ¬ s.cfg.timeoutTicks < s.timer.toNat + 1 := by omega
    exact ⟨by simp [State.sends, hmove], by simp [State.failsAttempt, State.failedAttempts, hmove, hnolate]⟩
  | timesOut moves drawn hreceiving hmove hq hlate =>
    have hatt := hinv.one_le_att hreceiving
    refine ⟨?_, ?_⟩
    · rw [(attemptFail_keeps _ _).2.2.1]
      simp [State.sends, hmove]
    · rw [attemptFail_failedAttempts, State.failedAttempts_receiving hreceiving]
      simp [State.failsAttempt, hmove, hq, hlate, s.receiving_iff.mpr hreceiving, State.rxAvail]
      omega
  | examines moves drawn b rest t hreceiving hq hmove ht =>
    obtain ⟨hsends, hfails⟩ := s.no_send_no_failure hreceiving (by simp [hq]) hmove
    rw [hsends, hfails, State.failedAttempts_receiving hreceiving]
    cases ht with
    | discards => exact ⟨rfl, State.failedAttempts_receiving hreceiving⟩
    | collects => exact ⟨rfl, rfl⟩
    | completes => exact ⟨rfl, rfl⟩
    | startsOver => exact ⟨rfl, rfl⟩

/-- If the call has ended, it has succeeded in some attempt or failed in the last. -/
def State.EndsProperly (s : State) : Prop :=
  s.fsm = .idle → s.res = .ok ∧ 1 ≤ s.att.toNat ∨
    (s.res = .errTimeout ∨ s.res = .errWrite) ∧ s.att.toNat = s.cfg.maxAttempts

theorem State.Inv.callStep_endsProperly {s t : State} (hinv : s.Inv) (hbusy : s.fsm ≠ .idle) (hstep : s.CallStep t) :
    t.EndsProperly := by
  intro hidle
  obtain ⟨_, _, _, _, _, hend⟩ := hinv.callStep_ends hbusy hstep hidle
  obtain ⟨hok, _, _, _, _, _, hatt, _⟩ | ⟨_, _, hspent, hcause⟩ := hend
  · exact .inl ⟨hok, hatt⟩
  · exact .inr ⟨hcause.imp And.left And.left, hspent⟩

/-- A run within a call: the step lemmas above, one step at a time. -/
theorem run_counts {n : Nat} {s t : State} (hinv : s.Inv) (hstart : s.EndsProperly) (hstays : staysInCall n s = true)
    (hrun : stepsFrom n s = some t) :
    t.Inv ∧ t.EndsProperly ∧ t.cfg = s.cfg ∧ t.att.toNat = s.att.toNat + countSteps State.sends n s ∧
      t.failedAttempts = s.failedAttempts + countSteps State.failsAttempt n s := by
  induction n generalizing s with
  | zero =>
    cases hrun
    exact ⟨hinv, hstart, rfl, rfl, rfl⟩
  | succ n ih =>
    obtain ⟨hbusy, hreset, u, hu, hstays⟩ := (staysInCall_succ_iff n s).mp hstays
    have hstep := hinv.callStep_of_step hbusy hreset hu
    obtain ⟨hatt, hfailed⟩ := hinv.callStep_counts hstep
    obtain ⟨_, hcfg, _⟩ := hinv.callStep_rxcnt hstep
    obtain ⟨htinv, htend, htcfg, htatt, htfailed⟩ :=
      ih (hinv.of_step hu) (hinv.callStep_endsProperly hbusy hstep) hstays ((stepsFrom_succ n hu).symm.trans hrun)
    rw [countSteps_succ _ n hu, countSteps_succ _ n hu]
    exact ⟨htinv, htend, htcfg.trans hcfg, by omega, by omega⟩

/-! ### The statements -/

/-- Settles O40: in IDLE only an accepted XFER changes FSM; in a call the kind of step says how. -/
theorem fsmChangesOnlyByTheTable : Obligations.FsmChangesOnlyByTheTable := by
  unfold Obligations.FsmChangesOnlyByTheTable
  intro s t hinv h hchanged hreset
  obtain ⟨w, later, hidle, hrequests, he⟩ | ⟨hwaiting, he⟩ := step_cases s
  case inl =>
    rw [he] at h
    obtain ⟨hsame, _⟩ | ⟨len, rfl, hframe, hmin, hmax, rfl⟩ :=
      transferRequest_starts_call_or_not (s := { s with requests := later }) hidle h
    · exact absurd hsame hchanged
    · exact .inl ⟨hidle, rfl, rfl, rfl, hframe, len, later, hrequests, hmin, hmax⟩
  by_cases hidle : s.fsm = .idle
  case pos =>
    have hempty : s.requests = [] := hwaiting.resolve_left (absurd hidle)
    obtain ⟨q, hmove, _⟩ | ⟨_, _, _, _, rfl⟩ := environmentStep_idle hidle (he.symm.trans h)
    · exact absurd hempty (hreset q hmove).2
    · exact absurd rfl hchanged
  have hstep := hinv.callStep_of_step hidle (fun q hmove => hidle (hreset q hmove).1) h
  right
  cases hstep with
  | passes => exact absurd rfl hchanged
  | counts => exact absurd rfl hchanged
  | sends moves drawn hsend hmove =>
    exact .inl ⟨hsend, rfl, hmove, hinv.att_add_one_of_send hsend, rfl, rfl⟩
  | writeFails moves drawn k hsend hmove =>
    have hatt := hinv.att_add_one_of_send hsend
    obtain ⟨_, _, _, _, _, ⟨hleft, _⟩, _⟩ := id hinv
    have hroom := hleft hsend
    obtain ⟨_, he⟩ | ⟨hspent, he⟩ := attemptFail_cases .write { s with
        agenda := moves, drawn := drawn, att := s.att + 1#4, rxq := [], rxcnt := 0#4, acc := 0#8,
        txs := s.txs ++ s.txFrame.take k } <;> rw [he] at hchanged ⊢
    · exact absurd hsend.symm hchanged
    · simp only at hspent
      exact .inr (.inl ⟨hsend, rfl, ⟨k, hmove⟩, by omega, hatt, rfl, rfl⟩)
  | timesOut moves drawn hreceiving hmove hq hlate =>
    have hr := s.receiving_iff.mpr hreceiving
    obtain ⟨_, _, _, hmax, _⟩ := hinv.callInv hidle
    obtain ⟨hleft, he⟩ | ⟨hspent, he⟩ := attemptFail_cases .timeout { s with
        agenda := moves, drawn := drawn, timer := s.timer + 1#16 } <;> rw [he]
    · exact .inr (.inr (.inr (.inr (.inr (.inl ⟨hr, rfl, hmove, hq, hlate, hleft, rfl⟩)))))
    · exact .inr (.inr (.inr (.inr (.inr (.inr ⟨hr, rfl, hmove, hq, hlate, hmax.antisymm hspent, rfl⟩)))))
  | examines moves drawn b rest t hreceiving hq hmove ht =>
    cases ht with
    | discards => exact absurd rfl hchanged
    | collects haddr hmore =>
      have hsync : s.fsm = .sync := hreceiving.resolve_right (fun haccum => hchanged haccum.symm)
      have hcnt := (hinv.rxcnt_eq_zero_iff hreceiving).mpr hsync
      exact .inr (.inr (.inl ⟨hsync, rfl, by rw [hq, haddr hsync], by simp [hcnt], rfl⟩))
    | completes haccum hlast hsum =>
      exact .inr (.inr (.inr (.inl ⟨haccum, rfl, by rw [hq, ← hsum], hlast, rfl⟩)))
    | startsOver haccum hlast hsum =>
      exact .inr (.inr (.inr (.inr (.inl ⟨haccum, rfl, ⟨b, hsum, hq⟩, hlast, rfl⟩))))

/-- Settles O41: the end of a call by its kind of step, with the STATUS that goes with a failure. -/
theorem endOfCallIsSuccessOrFailure : Obligations.EndOfCallIsSuccessOrFailure := by
  unfold Obligations.EndOfCallIsSuccessOrFailure
  intro s t hinv h hbusy hidle hreset
  have hstep := hinv.callStep_of_step hbusy hreset h
  obtain ⟨hvalid, hrdata, haddr, htxbuf, _, hend⟩ := hinv.callStep_ends hbusy hstep hidle
  obtain ⟨htimeout, hwrite⟩ := State.status_of_failed hidle
  refine ⟨by simp [hidle], hvalid, hrdata, haddr, htxbuf, hend.imp_right ?_⟩
  rintro ⟨hcnt, hacc, hspent, ⟨hres, htimer⟩ | ⟨hres, htimer⟩⟩
  · exact ⟨hcnt, hacc, hspent, .inl ⟨hres, htimer, htimeout hres⟩⟩
  · exact ⟨hcnt, hacc, hspent, .inr ⟨hres, htimer, hwrite hres⟩⟩

/-- Settles O44: a host operation leaves RXCNT, and RXLEN too unless it starts a call; a step of a call brings RXCNT
within RXLEN or leaves both with FSM; SEND clears RXCNT before it is read. -/
theorem rxcntWithinRxlenOutsideSend : Obligations.RxcntWithinRxlenOutsideSend := by
  unfold Obligations.RxcntWithinRxlenOutsideSend
  refine ⟨fun s t hinv hbound h hfsm => ?within, fun s t hinv hbound h => ?capacity,
    fun s a moves count hsend hagenda => ?send⟩
  case within =>
    by_cases hidle : s.fsm = .idle
    · obtain ⟨_, hzero | ⟨hcnt, hlen | hcall⟩⟩ := step_rxcnt_of_idle hidle h
      · simp [hzero]
      · rw [hcnt, hlen]
        exact hbound (by simp [hidle])
      · exact absurd hcall hfsm
    · obtain ⟨_, hzero | ⟨hlen, ⟨hcnt, hsame⟩ | hle⟩⟩ := hinv.step_rxcnt_of_busy hidle h
      · simp [hzero]
      · rw [hcnt, hlen]
        exact hbound (hsame ▸ hfsm)
      · rwa [hlen]
  case capacity =>
    by_cases hidle : s.fsm = .idle
    · obtain ⟨hcfg, hzero | ⟨hcnt, _⟩⟩ := step_rxcnt_of_idle hidle h
      · simp [hzero]
      · rwa [hcnt, hcfg]
    · obtain ⟨hcfg, hzero | ⟨hlen, ⟨hcnt, hsame⟩ | hle⟩⟩ := hinv.step_rxcnt_of_busy hidle h
      · simp [hzero]
      · rwa [hcnt, hcfg]
      · obtain ⟨_, _, ⟨_, _, _, _, hmax⟩, _⟩ := hinv.callInv hidle
        rw [hcfg]
        exact hle.trans hmax
  case send =>
    rw [step_engine_send hagenda hsend, step_engine_send (s := { s with rxcnt := count }) hagenda hsend]
    cases a <;> rfl

/-- Settles O38, by induction on the bytes queued: each step examines the oldest one, the TICK held. -/
theorem bytesBeforeTime : Obligations.BytesBeforeTime := by
  unfold Obligations.BytesBeforeTime
  intro s moves hinv hreceiving hagenda
  generalize hq : s.rxq = queued
  induction queued generalizing s with
  | nil => exact ⟨0, s, le_rfl, rfl, rfl, hq, .inl hq, .inl rfl⟩
  | cons b rest ih =>
    obtain ⟨u, hu, hexamines⟩ := hinv.rxByteStep_examines hreceiving hq
    have hstep : step s = .next u :=
      (step_tick_held (.inl (s.busy_of_receiving hreceiving)) hagenda hreceiving (by simp [hq])).trans hu
    have kept : u.agenda = s.agenda ∧ u.rxq = rest ∧ (u.timer = s.timer ∨ u.timer = 0#16) ∧
        (u.fsm = .idle ∨ u.fsm = .sync ∨ u.fsm = .accum) := by
      cases hexamines with
      | discards => exact ⟨rfl, rfl, .inl rfl, .inr hreceiving⟩
      | collects => exact ⟨rfl, rfl, .inr rfl, .inr (.inr rfl)⟩
      | completes => exact ⟨rfl, rfl, .inr rfl, .inl rfl⟩
      | startsOver => exact ⟨rfl, rfl, .inr rfl, .inr (.inl rfl)⟩
    obtain ⟨hagenda', hq', htimer, hidle | hreceiving'⟩ := kept
    · exact ⟨1, u, by simp, stepsFrom_succ 0 hstep, hagenda', by simpa using hq', .inr hidle, htimer⟩
    · obtain ⟨n, t, hn, hrun, hta, htq, hend, httimer⟩ :=
        ih u (hinv.of_step hstep) hreceiving' (hagenda'.trans hagenda) hq'
      refine ⟨n + 1, t, by simpa using hn, (stepsFrom_succ n hstep).trans hrun, hta.trans hagenda', by simpa using htq,
        hend, ?_⟩
      obtain h | h := httimer
      · rw [h]
        exact htimer
      · exact .inr h

/-- Settles O49: a call that ends properly has every attempt behind it, or has not used up its attempts. -/
theorem callFailsExactlyWhenAllAttemptsFail : Obligations.CallFailsExactlyWhenAllAttemptsFail := by
  unfold Obligations.CallFailsExactlyWhenAllAttemptsFail
  intro s t n hinv hsend hatt hstays hrun
  have hstart : s.EndsProperly := fun hidle => by simp [hsend] at hidle
  obtain ⟨htinv, hend, hcfg, hsends, hfails⟩ := run_counts hinv hstart hstays hrun
  have hnone : s.failedAttempts = 0 := by simp [State.failedAttempts, hsend, hatt]
  rw [hnone, Nat.zero_add] at hfails
  rw [hatt, BitVec.toNat_ofNat, Nat.zero_mod, Nat.zero_add] at hsends
  obtain ⟨_, _, _, _, _, ⟨hleft, hcount, hmax, _⟩, _⟩ := htinv
  rw [hcfg] at hleft hmax
  refine ⟨hsends, hmax, fun hgoes => ?running, fun hidle hres => ?failed⟩
  case running =>
    rw [← hfails]
    cases hfsm : t.fsm with
    | send => simpa [State.failedAttempts, hfsm] using hleft hfsm
    | sync =>
      have := (hcount (.inl hfsm)).1
      simp only [State.failedAttempts, hfsm]
      omega
    | accum =>
      have := (hcount (.inr hfsm)).1
      simp only [State.failedAttempts, hfsm]
      omega
    | idle =>
      have hok : t.res = .ok := hgoes.resolve_left (by simp [hfsm])
      obtain ⟨_, hone⟩ | ⟨herr, _⟩ := hend hfsm
      · simp only [State.failedAttempts, hfsm, hok, if_true]
        omega
      · simp [hok] at herr
  case failed =>
    obtain ⟨hok, _⟩ | ⟨herr, hspent⟩ := hend hidle
    · exact absurd hok hres
    · have hall : t.failedAttempts = t.att.toNat := by simp [State.failedAttempts, hidle, hres]
      rw [hcfg] at hspent
      exact ⟨herr, by omega, by omega⟩

end Sys2Proof.Machine
end

section
/-! SUPPORT. No step reads the link's parameters (R8) or TXS (R36): a step commutes with changing them. -/

namespace Sys2Proof.Machine

open Sys2Proof.Config

/-- The outcome with its next state, if it has one, changed by `f`. -/
def mapNext (f : State → State) : Host.Outcome State Fault Refusal → Host.Outcome State Fault Refusal
  | .next t => .next (f t)
  | .fault r => .fault r
  | .refused r => .refused r

@[simp] theorem mapNext_next (f : State → State) (t : State) : mapNext f (.next t) = .next (f t) := rfl

/-- The state with other link parameters and with earlier bytes on the link. -/
def State.relabel (baud : Nat) (framing : Framing) (earlier : List Byte) (s : State) : State :=
  { s with cfg := { s.cfg with baud := baud, framing := framing }, txs := earlier ++ s.txs }

/-- A state's own link parameters in place of themselves. -/
theorem State.relabel_own {s : State} {p : Params} (h : s.cfg = p) (earlier : List Byte) :
    s.relabel p.baud p.framing earlier = { s with txs := earlier ++ s.txs } := by
  subst h
  rfl

section
variable (baud : Nat) (framing : Framing) (earlier : List Byte)

/-! ### The host operations -/

theorem encodeFrame_relabel (body : List Byte) (s : State) :
    encodeFrame body (s.relabel baud framing earlier) =
      mapNext (State.relabel baud framing earlier) (encodeFrame body s) := by
  simp only [encodeFrame, State.accSum_eq]
  have hbuf : (s.relabel baud framing earlier).txbuf = s.txbuf := rfl
  rw [hbuf]
  cases putFrame (body ++ [checksum body body.length]) s.txbuf <;> rfl

theorem decodeFrame_relabel (need : Nat) (value : List Byte → BitVec 64) (s : State) :
    decodeFrame need value (s.relabel baud framing earlier) =
      mapNext (State.relabel baud framing earlier) (decodeFrame need value s) := by
  simp only [decodeFrame, apply_ite (mapNext (State.relabel baud framing earlier))]
  rfl

theorem execXfer_relabel (len : BitVec 4) {s : State} (hidle : s.fsm = .idle) :
    execXfer len (s.relabel baud framing earlier) =
      mapNext (State.relabel baud framing earlier) (execXfer len s) := by
  rw [execXfer, execXfer, hostOp_idle s _ hidle, hostOp_idle (s.relabel baud framing earlier) _ hidle]
  simp only [apply_ite (mapNext (State.relabel baud framing earlier))]
  rfl

theorem exec_relabel (i : Instr) (s : State) :
    exec i (s.relabel baud framing earlier) = mapNext (State.relabel baud framing earlier) (exec i s) := by
  by_cases hidle : s.fsm = .idle
  case neg => rw [exec_busy i hidle, exec_busy i (s := s.relabel baud framing earlier) hidle, mapNext_next]
  case pos =>
    have hidle' : (s.relabel baud framing earlier).fsm = .idle := hidle
    cases i with
    | encS cmd =>
      rw [exec_encS_eq hidle, exec_encS_eq hidle']
      exact encodeFrame_relabel baud framing earlier _ s
    | encP8 cmd v8 =>
      rw [exec_encP8_eq hidle, exec_encP8_eq hidle']
      exact encodeFrame_relabel baud framing earlier _ s
    | encP16 cmd v16 =>
      rw [exec_encP16_eq hidle, exec_encP16_eq hidle']
      exact encodeFrame_relabel baud framing earlier _ s
    | encP8P32 cmd v8 v32 =>
      rw [exec_encP8P32_eq hidle, exec_encP8P32_eq hidle']
      exact encodeFrame_relabel baud framing earlier _ s
    | decStatus =>
      rw [exec_decStatus_idle s hidle, exec_decStatus_idle _ hidle']
      exact decodeFrame_relabel baud framing earlier _ _ s
    | decI16 =>
      rw [exec_decI16_idle hidle, exec_decI16_idle hidle']
      exact decodeFrame_relabel baud framing earlier _ _ s
    | decI32 =>
      rw [exec_decI32_idle hidle, exec_decI32_idle hidle']
      exact decodeFrame_relabel baud framing earlier _ _ s
    | decPos64 =>
      rw [exec_decPos64_idle hidle, exec_decPos64_idle hidle']
      exact decodeFrame_relabel baud framing earlier _ _ s
    | xfer len => exact execXfer_relabel baud framing earlier len hidle
    | setaddr v8 =>
      rw [exec_setaddr_idle v8 s hidle, exec_setaddr_idle v8 _ hidle']
      rfl
    | csumClr =>
      rw [exec_csumClr_idle s hidle, exec_csumClr_idle _ hidle']
      rfl
    | csumAdd v8 =>
      rw [exec_csumAdd_idle v8 s hidle, exec_csumAdd_idle v8 _ hidle']
      rfl

theorem transferRequest_relabel (w : Desc) (s : State) :
    transferRequest w (s.relabel baud framing earlier) =
      mapNext (State.relabel baud framing earlier) (transferRequest w s) := by
  cases hd : decode w with
  | ok i => rw [transferRequest_ok hd, transferRequest_ok hd, exec_relabel]
  | error why => rw [transferRequest_error hd, transferRequest_error hd]; rfl

/-! ### The engine and the clock -/

theorem attemptFail_relabel (cause : Cause) (s : State) :
    attemptFail cause (s.relabel baud framing earlier) =
      (attemptFail cause s).relabel baud framing earlier := by
  simp only [attemptFail, apply_ite (State.relabel baud framing earlier)]
  rfl

theorem sendStep_relabel (a : WriteAnswer) (s : State) :
    sendStep a (s.relabel baud framing earlier) =
      mapNext (State.relabel baud framing earlier) (sendStep a s) := by
  by_cases hfits : s.txlen.toNat ≤ s.txbuf.length
  case neg =>
    rw [sendStep, if_pos (by exact not_le.mp hfits), sendStep, if_pos (not_le.mp hfits)]
    rfl
  case pos =>
    cases a with
    | ok =>
      rw [sendStep_ok hfits, sendStep_ok (s := s.relabel baud framing earlier) hfits, mapNext_next]
      simp only [State.relabel, List.append_assoc]
      rfl
    | err k =>
      rw [sendStep_err hfits, sendStep_err (s := s.relabel baud framing earlier) hfits, mapNext_next,
        ← attemptFail_relabel]
      simp only [State.relabel, List.append_assoc]
      rfl

theorem rxByteStep_relabel (s : State) :
    rxByteStep (s.relabel baud framing earlier) =
      mapNext (State.relabel baud framing earlier) (rxByteStep s) := by
  cases hq : s.rxq with
  | nil =>
    simp only [rxByteStep, State.rxPop, hq]
    rw [show (s.relabel baud framing earlier).rxq = [] from hq]
    rfl
  | cons b rest =>
    simp only [rxByteStep, State.rxPop, hq]
    rw [show (s.relabel baud framing earlier).rxq = b :: rest from hq]
    simp only [acceptByte, apply_ite (mapNext (State.relabel baud framing earlier))]
    rfl

theorem tickStep_relabel (s : State) :
    tickStep (s.relabel baud framing earlier) = (tickStep s).relabel baud framing earlier := by
  simp only [tickStep, apply_ite (State.relabel baud framing earlier), ← attemptFail_relabel]
  rfl

theorem engineStep_relabel (a : WriteAnswer) (s : State) :
    engineStep a (s.relabel baud framing earlier) =
      mapNext (State.relabel baud framing earlier) (engineStep a s) := by
  have hfsm : (s.relabel baud framing earlier).fsm = s.fsm := rfl
  cases hf : s.fsm <;> simp only [engineStep, hfsm, hf]
  · rfl
  · exact sendStep_relabel baud framing earlier a s
  · exact rxByteStep_relabel baud framing earlier s
  · exact rxByteStep_relabel baud framing earlier s

/-! ### The step -/

theorem State.dropMove_relabel (s : State) :
    (s.relabel baud framing earlier).dropMove = s.dropMove.relabel baud framing earlier := by
  cases ha : s.agenda with
  | nil =>
    rw [State.dropMove_nil_agenda s ha, State.dropMove_nil_agenda (s.relabel baud framing earlier) ha]
    rfl
  | cons m rest =>
    rw [State.dropMove_cons_agenda s m rest ha, State.dropMove_cons_agenda (s.relabel baud framing earlier) m rest ha]
    rfl

/-- Reset empties TXS (R45), so earlier bytes on the link do not outlive it. -/
theorem environmentStep_relabel (s : State) (hreset : earlier = [] ∨ ∀ q, s.nextMove ≠ .reset q) :
    environmentStep (s.relabel baud framing earlier) =
      mapNext (State.relabel baud framing earlier) (environmentStep s) := by
  have hmove : (s.relabel baud framing earlier).nextMove = s.nextMove := rfl
  simp only [environmentStep, hmove, State.dropMove_relabel]
  cases hm : s.nextMove with
  | present w => rfl
  | append b => rfl
  | tick =>
    simp only [apply_ite (mapNext (State.relabel baud framing earlier)), ← rxByteStep_relabel, mapNext_next,
      ← tickStep_relabel]
    rfl
  | engine a => exact engineStep_relabel baud framing earlier a _
  | reset q =>
    have hnone : earlier = [] := hreset.resolve_right fun h => h q hm
    subst hnone
    rfl

theorem step_relabel (s : State) (hreset : earlier = [] ∨ ∀ q, s.nextMove ≠ .reset q) :
    step (s.relabel baud framing earlier) = mapNext (State.relabel baud framing earlier) (step s) := by
  obtain ⟨w, rest, hidle, hrequests, he⟩ | ⟨hwaiting, he⟩ := step_cases s <;> rw [he]
  · rw [step_transfer (s := s.relabel baud framing earlier) hidle hrequests]
    exact transferRequest_relabel baud framing earlier w { s with requests := rest }
  · rw [step_environment (s := s.relabel baud framing earlier) hwaiting]
    exact environmentStep_relabel baud framing earlier s hreset

end

/-! ### The parameters -/

/-- No step writes the parameters (log 5). -/
theorem step_cfg {s t : State} (h : step s = .next t) : t.cfg = s.cfg := by
  obtain ⟨w, rest, _, _, he⟩ | ⟨_, he⟩ := step_cases s <;> rw [he] at h
  · exact (transferRequest_hostKeeps h).cfg
  · obtain ⟨_, _, he⟩ | ⟨_, _, he⟩ | ⟨_, _, _, he⟩ | ⟨_, _, he⟩ | ⟨_, _, he⟩ | ⟨_, _, he⟩ :=
      environmentStep_cases s <;> rw [he] at h
    · cases h
      simp
    · cases h
      simp
    · exact (rxByteStep_keeps h).1.cfg
    · cases h
      simp [(tickStep_keeps s.dropMove).1.cfg]
    · simp [(engineStep_keeps h).cfg]
    · cases h
      simp

/-! ### The statements -/

/-- Settles O4: the step commutes with changing the link's parameters. -/
theorem linkParametersAreReadByNoStep : Obligations.LinkParametersAreReadByNoStep := by
  unfold Obligations.LinkParametersAreReadByNoStep
  refine ⟨rfl, rfl, fun s t b f h => ?_⟩
  have hcommutes := step_relabel b f [] s (.inl rfl)
  rw [h] at hcommutes
  exact hcommutes

/-- Settles O47: only SEND writes TXS, the frame or its first bytes; the step commutes with putting bytes before TXS. -/
theorem sentBytesOnlyGrowAndAreNotRead : Obligations.SentBytesOnlyGrowAndAreNotRead := by
  unfold Obligations.SentBytesOnlyGrowAndAreNotRead
  refine fun s t h hreset => ⟨?grows, fun earlier => ?unread⟩
  case grows =>
    obtain ⟨w, rest, _, _, he⟩ | ⟨_, he⟩ := step_cases s <;> rw [he] at h
    · exact ⟨[], by simpa using (transferRequest_hostKeeps h).txs, List.nil_prefix, by simp⟩
    · exact environmentStep_txs h hreset
  case unread =>
    have hcommutes := step_relabel s.cfg.baud s.cfg.framing earlier s (.inr hreset)
    rwa [h, mapNext_next, State.relabel_own rfl, State.relabel_own (step_cfg h)] at hcommutes

end Sys2Proof.Machine
end

section
/-! SUPPORT. The checksum of a changed frame (R121), the frame an ENC operation leaves to be sent (R136), and the checksum
computed by CSUM_CLR and CSUM_ADD (R124); with the statements about them. -/

namespace Sys2Proof.Machine

open Sys2Proof.Config

/-! ### A byte replaced -/

/-- A byte replaced beyond the sum leaves the sum. -/
theorem checksum_set_of_le (f : List Byte) {i n : Nat} (b : Byte) (h : n ≤ i) :
    checksum (f.set i b) n = checksum f n :=
  checksum_congr _ _ _ (List.take_set_of_le h)

/-- A summed byte replaced changes the sum by the difference. -/
theorem checksum_set_of_lt (f : List Byte) {i n : Nat} (b : Byte) (hi : i < n) (hn : n ≤ f.length) :
    checksum (f.set i b) n = checksum f n + (b - byteAt f i) := by
  induction n with
  | zero => omega
  | succ n ih =>
    rw [checksum_succ _ n (by simpa using hn), checksum_succ f n hn]
    obtain hlt | rfl := Nat.lt_succ_iff_lt_or_eq.mp hi
    · rw [ih hlt (Nat.le_of_succ_le hn), byteAt_set_ne f i n b hlt.ne]
      ring
    · rw [checksum_set_of_le f b le_rfl, byteAt_set_same f i b hn]
      ring

/-- Settles O13: one changed byte changes the sum or the trailer and not both; of two changed summed bytes the differences
add up. -/
theorem checksumFaultsSingleByteChanges : Obligations.ChecksumFaultsSingleByteChanges := by
  unfold Obligations.ChecksumFaultsSingleByteChanges
  intro f n hn hlen hok
  refine ⟨fun i b hi hb => ?single, fun i j d hi hj hij => ?cancelling⟩
  case single =>
    rw [FrameOk] at hok ⊢
    obtain hlt | heq : i < n - 1 ∨ i = n - 1 := by omega
    · rw [byteAt_set_ne f i _ b hlt.ne, checksum_set_of_lt f b hlt (by omega), hok]
      intro h
      have hzero : b - byteAt f i = 0#8 := by simpa using h.symm
      exact hb (BitVec.sub_eq_iff_eq_add.mp hzero |>.trans (BitVec.zero_add _))
    · subst heq
      rw [byteAt_set_same f _ b (by omega), checksum_set_of_le f b le_rfl, ← hok]
      exact hb
  case cancelling =>
    rw [FrameOk] at hok ⊢
    rw [byteAt_set_ne _ j _ _ hj.ne, byteAt_set_ne f i _ _ hi.ne, checksum_set_of_lt _ _ hj (by simp; omega),
      checksum_set_of_lt f _ hi (by omega), byteAt_set_ne f i j _ hij, hok]
    ring

/-! ### The frame to be sent -/

theorem State.encoded_txFrame (s : State) {operands : List Byte} (h : operands.length ≤ 6) :
    (s.encoded operands).txFrame = s.addr :: operands ++ [operands.foldl (· + ·) s.addr] := by
  have hlen : (BitVec.ofNat 4 (operands.length + 2)).toNat = operands.length + 2 := by
    rw [BitVec.toNat_ofNat]
    omega
  rw [State.txFrame, State.encoded]
  simp only [hlen]
  exact List.take_left' (by simp)

/-- The trailer of the frame to be sent is the sum of the bytes before it. -/
theorem State.encoded_outCsum (s : State) {operands : List Byte} (h : operands.length ≤ 6) :
    outCsum (s.encoded operands).txFrame = checksum (s.encoded operands).txFrame (operands.length + 1) := by
  rw [s.encoded_txFrame h, outCsum, ← checksum_cons_eq_foldl]
  have hframe := frameOk_append_checksum (s.addr :: operands) []
  rw [List.append_nil] at hframe
  simpa [FrameOk] using hframe

/-- A word is its bytes side by side, so what ENC_P16 and ENC_P8P32 send is every operand's. -/
theorem eq_append_of_bytes16 (v : BitVec 16) : v = v.extractLsb' 8 8 ++ v.extractLsb' 0 8 := by
  apply BitVec.eq_of_getLsbD_eq
  intro k hk
  simp only [BitVec.getLsbD_append, BitVec.getLsbD_extractLsb']
  grind

theorem eq_append_of_bytes32 (v : BitVec 32) :
    v = v.extractLsb' 24 8 ++ v.extractLsb' 16 8 ++ v.extractLsb' 8 8 ++ v.extractLsb' 0 8 := by
  apply BitVec.eq_of_getLsbD_eq
  intro k hk
  simp only [BitVec.getLsbD_append, BitVec.getLsbD_extractLsb']
  grind

/-- Settles O9: the frame of each format written out byte by byte, and read back. -/
theorem encodedFrameReadsBack : Obligations.EncodedFrameReadsBack := by
  unfold Obligations.EncodedFrameReadsBack
  refine fun s hidle hwf => ⟨fun cmd => ?_, fun cmd v8 => ?_, fun cmd v16 => ?_, fun cmd v8 v32 => ?_⟩
  · refine ⟨_, exec_encS_idle hidle hwf cmd, ?_, ?_, ?_, s.encoded_outCsum (by simp)⟩ <;>
      rw [s.encoded_txFrame (by simp)] <;> rfl
  · refine ⟨_, exec_encP8_idle hidle hwf cmd v8, ?_, ?_, ?_, ?_, s.encoded_outCsum (by simp)⟩ <;>
      rw [s.encoded_txFrame (by simp)] <;> rfl
  · rw [eq_append_of_bytes16 v16]
    refine ⟨_, exec_encP16_idle hidle hwf cmd _ _, ?_, ?_, ?_, ?_, s.encoded_outCsum (by simp)⟩ <;>
      rw [s.encoded_txFrame (by simp)] <;> rfl
  · rw [eq_append_of_bytes32 v32]
    refine ⟨_, exec_encP8P32_idle hidle hwf cmd v8 _ _ _ _, ?_, ?_, ?_, ?_, ?_, s.encoded_outCsum (by simp)⟩ <;>
      rw [s.encoded_txFrame (by simp)] <;> rfl

/-! ### The checksum sequence -/

/-- The sum does not depend on the order (R121 (c)). -/
theorem checksum_perm {order bytes : List Byte} (h : order.Perm bytes) :
    checksum order order.length = checksum bytes bytes.length := by
  rw [checksum, checksum, List.take_length, List.take_length, (h.map BitVec.toNat).sum_eq]

/-- One CSUM_ADD per byte adds the bytes to ACC, one step each. -/
theorem stepsFrom_csumAdds (bytes : List Byte) {s : State} {later : List Desc} (hidle : s.fsm = .idle)
    (hack : s.ack = some .accepted) (hrequests : s.requests = (bytes.map fun b => encode (.csumAdd b)) ++ later) :
    stepsFrom bytes.length s = some { s with requests := later, acc := s.acc + checksum bytes bytes.length } := by
  induction bytes generalizing s with
  | nil =>
    rw [List.map_nil, List.nil_append] at hrequests
    simp [← hrequests]
  | cons b rest ih =>
    have hstep : step s = .next { s with
        requests := (rest.map fun b => encode (.csumAdd b)) ++ later, acc := s.acc + b, ack := some .accepted } :=
      (step_encode hidle hrequests).trans (exec_csumAdd_idle b _ hidle)
    refine (stepsFrom_succ _ hstep).trans ((ih ?_ ?_ ?_).trans ?_)
    · exact hidle
    · rfl
    · rfl
    · rw [hack, checksum_cons_eq_foldl, foldl_add_eq_checksum, BitVec.add_assoc]

/-- Settles O12: the clear, then the additions, whose sum the order does not change. -/
theorem csumSequenceGivesChecksum : Obligations.CsumSequenceGivesChecksum := by
  unfold Obligations.CsumSequenceGivesChecksum
  intro s bytes order later hidle hperm hrequests
  have hstep : step s = .next { s with
      requests := (order.map fun b => encode (.csumAdd b)) ++ later, acc := 0#8, ack := some .accepted } :=
    (step_encode hidle hrequests).trans (exec_csumClr_idle _ hidle)
  rw [Nat.add_comm, stepsFrom_succ _ hstep, ← checksum_perm hperm, ← hperm.length_eq]
  refine (stepsFrom_csumAdds order (later := later) ?_ ?_ ?_).trans ?_
  · exact hidle
  · rfl
  · rfl
  · rw [BitVec.zero_add]

end Sys2Proof.Machine
end

section
/-! SUPPORT. What the DEC operations deliver as signed numbers (R140 to R146), and the statements about them. -/

namespace Sys2Proof.Machine

open Sys2Proof.Config

/-! ### Big-endian numbers and two's complement -/

theorem beValue_cons (b : Byte) (rest : List Byte) :
    beValue (b :: rest) = b.toNat * 256 ^ rest.length + beValue rest := by
  have hfold : ∀ (bytes : List Byte) (v : Nat),
      bytes.foldl (fun v b => v * 256 + b.toNat) v = v * 256 ^ bytes.length + beValue bytes := by
    intro bytes
    induction bytes with
    | nil => simp [beValue]
    | cons c rest ih =>
      intro v
      have hrest : beValue (c :: rest) = (0 * 256 + c.toNat) * 256 ^ rest.length + beValue rest := ih _
      rw [List.foldl_cons, ih, hrest, List.length_cons]
      ring
  exact (hfold rest _).trans (by simp)

theorem beValue_lt (bytes : List Byte) : beValue bytes < 256 ^ bytes.length := by
  induction bytes with
  | nil => simp [beValue]
  | cons b rest ih =>
    rw [beValue_cons, List.length_cons, Nat.pow_succ']
    have hb : b.toNat + 1 ≤ 256 := b.isLt
    calc b.toNat * 256 ^ rest.length + beValue rest
        < b.toNat * 256 ^ rest.length + 256 ^ rest.length := by omega
      _ = (b.toNat + 1) * 256 ^ rest.length := by ring
      _ ≤ 256 * 256 ^ rest.length := Nat.mul_le_mul_right _ hb

theorem beValue_append (xs ys : List Byte) : beValue (xs ++ ys) = beValue xs * 256 ^ ys.length + beValue ys := by
  induction xs with
  | nil => simp [beValue]
  | cons b rest ih =>
    rw [List.cons_append, beValue_cons, ih, beValue_cons, List.length_append, Nat.pow_add]
    ring

theorem length_beBytes (count v : Nat) : (beBytes count v).length = count := by
  induction count with
  | zero => rfl
  | succ k ih => rw [beBytes, List.length_cons, ih]

theorem beValue_beBytes (count v : Nat) : beValue (beBytes count v) = v % 256 ^ count := by
  induction count with
  | zero => simp [beBytes, beValue, Nat.mod_one]
  | succ k ih =>
    rw [beBytes, beValue_cons, length_beBytes, ih, Nat.pow_succ, Nat.mod_mul, BitVec.toNat_ofNat]
    ring

theorem two_pow_eq_twice {width : Nat} (hw : 0 < width) : 2 ^ width = 2 * 2 ^ (width - 1) := by
  rw [← Nat.pow_succ', Nat.succ_eq_add_one, Nat.sub_add_cancel hw]

/-- A number in range is the signed reading of its residue (R12). -/
theorem signedOf_emod {width : Nat} {x : Int} (hw : 0 < width) (hmin : -(2 ^ (width - 1) : Nat) ≤ x)
    (hmax : x < (2 ^ (width - 1) : Nat)) : signedOf width (x % (2 ^ width : Nat)).toNat = x := by
  rw [signedOf, two_pow_eq_twice hw]
  generalize 2 ^ (width - 1) = half at *
  obtain hneg | hpos := lt_or_ge x 0
  · have hmod : x % (2 * half : Nat) = x + (2 * half : Nat) := by
      rw [← Int.add_emod_right, Int.emod_eq_of_lt] <;> omega
    rw [hmod]
    split <;> omega
  · have hmod : x % (2 * half : Nat) = x := Int.emod_eq_of_lt hpos (by omega)
    rw [hmod]
    split <;> omega

/-- The signed reading of a word is the signed reading of its number (log 12). -/
theorem toInt_eq_signedOf {width : Nat} (hw : 0 < width) (v : BitVec width) : v.toInt = signedOf width v.toNat := by
  rw [BitVec.toInt_eq_toNat_cond, signedOf, two_pow_eq_twice hw]
  generalize 2 ^ (width - 1) = half
  split <;> split <;> omega

/-- The bytes a device sends for a number in range are read as that number (R146). -/
theorem signedOf_beValue_beBytesInt {count : Nat} {x : Int} (hc : 0 < count) (hmin : -(2 ^ (8 * count - 1) : Nat) ≤ x)
    (hmax : x < (2 ^ (8 * count - 1) : Nat)) : signedOf (8 * count) (beValue (beBytesInt count x)) = x := by
  have hpow : 256 ^ count = 2 ^ (8 * count) := by rw [Nat.pow_mul]
  have hpos : (0 : Int) < (2 ^ (8 * count) : Nat) := by exact_mod_cast Nat.two_pow_pos _
  have hlt : (x % (2 ^ (8 * count) : Nat)).toNat < 2 ^ (8 * count) := by
    have := Int.emod_lt_of_pos x hpos
    have := Int.emod_nonneg x hpos.ne'
    omega
  rw [beBytesInt, beValue_beBytes, hpow, Nat.mod_eq_of_lt hlt, signedOf_emod (by omega) hmin hmax]

/-- The register holds a signed number of at most 8 bytes as it is. -/
theorem toInt_ofInt_signedOf_beValue (bytes : List Byte) (hpos : 0 < bytes.length) (hlen : bytes.length ≤ 8) :
    (BitVec.ofInt 64 (signedOf (8 * bytes.length) (beValue bytes))).toInt =
      signedOf (8 * bytes.length) (beValue bytes) := by
  have hv : beValue bytes < 2 ^ (8 * bytes.length) := by
    rw [Nat.pow_mul]
    exact beValue_lt bytes
  have hhalf : 2 ^ (8 * bytes.length - 1) ≤ 2 ^ 63 := Nat.pow_le_pow_right (by simp) (by omega)
  rw [two_pow_eq_twice (by omega)] at hv
  apply BitVec.toInt_ofInt_eq_self (by simp) <;> rw [signedOf, two_pow_eq_twice (by omega : 0 < 8 * bytes.length)] <;>
    generalize 2 ^ (8 * bytes.length - 1) = half at * <;> split <;> omega

/-- A signed carrier times 65536 plus an unsigned sub-position is one signed 48-bit number (R144). -/
theorem signedOf_carrier_sub {carrier sub : Nat} (hc : carrier < 2 ^ 32) (hs : sub < 2 ^ 16) :
    signedOf 32 carrier * 65536 + (sub : Int) = signedOf 48 (carrier * 65536 + sub) := by
  simp only [signedOf]
  split <;> split <;> omega

/-! ### The three signed values -/

/-- The six bytes of a position, carrier before sub-position. -/
def positionBytes (f : List Byte) : List Byte := carrierBytes f ++ [byteAt f 5, byteAt f 6]

theorem beValue_pair (a b : Byte) : beValue [a, b] = a.toNat * 256 + b.toNat := by simp [beValue]

theorem beValue_carrierBytes (f : List Byte) :
    beValue (carrierBytes f) = (byteAt f 1).toNat * 2 ^ 24 + (byteAt f 2).toNat * 2 ^ 16 +
      (byteAt f 3).toNat * 2 ^ 8 + (byteAt f 4).toNat := by
  simp only [carrierBytes, beValue, List.foldl_cons, List.foldl_nil]
  ring

theorem beValue_carrierBytes_lt (f : List Byte) : beValue (carrierBytes f) < 2 ^ 32 := by
  simpa [carrierBytes] using beValue_lt (carrierBytes f)

theorem beValue_pair_lt (a b : Byte) : beValue [a, b] < 2 ^ 16 := by simpa using beValue_lt [a, b]

theorem valueStatus_toInt (f : List Byte) : (valueStatus f).toInt = (byteAt f 1).toNat := by
  have hb := (byteAt f 1).isLt
  have hv : (valueStatus f).toNat = (byteAt f 1).toNat := by
    rw [valueStatus, BitVec.toNat_ofNat, Nat.mod_eq_of_lt (by omega)]
  rw [BitVec.toInt_eq_toNat_of_lt (by omega), hv]

theorem valueI16_toInt (f : List Byte) :
    (valueI16 f).toInt = signedOf 16 (beValue [byteAt f 1, byteAt f 2]) :=
  toInt_ofInt_signedOf_beValue [byteAt f 1, byteAt f 2] (by simp) (by simp)

theorem valueI32_toInt (f : List Byte) : (valueI32 f).toInt = signedOf 32 (beValue (carrierBytes f)) :=
  toInt_ofInt_signedOf_beValue (carrierBytes f) (by simp [carrierBytes]) (by simp [carrierBytes])

theorem beValue_positionBytes (f : List Byte) :
    beValue (positionBytes f) = beValue (carrierBytes f) * 65536 + beValue [byteAt f 5, byteAt f 6] := by
  simp [positionBytes, beValue_append]

theorem valuePos64_eq (f : List Byte) : valuePos64 f = BitVec.ofInt 64 (signedOf 48 (beValue (positionBytes f))) := by
  rw [valuePos64, signedOf_carrier_sub (beValue_carrierBytes_lt f) (beValue_pair_lt _ _), beValue_positionBytes]

theorem valuePos64_toInt (f : List Byte) : (valuePos64 f).toInt =
    signedOf 32 (beValue (carrierBytes f)) * 65536 + (beValue [byteAt f 5, byteAt f 6] : Nat) := by
  rw [signedOf_carrier_sub (beValue_carrierBytes_lt f) (beValue_pair_lt _ _), valuePos64_eq, ← beValue_positionBytes]
  exact toInt_ofInt_signedOf_beValue (positionBytes f) (by simp [positionBytes, carrierBytes])
    (by simp [positionBytes, carrierBytes])

theorem toNat_append_byte {w : Nat} (v : BitVec w) (b : Byte) : (v ++ b).toNat = v.toNat * 256 + b.toNat := by
  rw [BitVec.toNat_append, ← Nat.shiftLeft_add_eq_or_of_lt b.isLt, Nat.shiftLeft_eq]

/-- The position is its six bytes, sign-extended (R144). -/
theorem valuePos64_eq_signExtend (f : List Byte) :
    valuePos64 f =
      (byteAt f 1 ++ byteAt f 2 ++ byteAt f 3 ++ byteAt f 4 ++ byteAt f 5 ++ byteAt f 6).signExtend 64 := by
  have hnat : (byteAt f 1 ++ byteAt f 2 ++ byteAt f 3 ++ byteAt f 4 ++ byteAt f 5 ++ byteAt f 6).toNat =
      beValue (carrierBytes f) * 65536 + beValue [byteAt f 5, byteAt f 6] := by
    simp only [toNat_append_byte, beValue_carrierBytes, beValue_pair]
    ring
  apply BitVec.eq_of_toInt_eq
  rw [valuePos64_toInt, BitVec.toInt_signExtend_of_le (by simp), toInt_eq_signedOf (by simp), hnat,
    signedOf_carrier_sub (beValue_carrierBytes_lt f) (beValue_pair_lt _ _)]

theorem signedOf_16 (v : Nat) : signedOf 16 v = if v < 32768 then (v : Int) else (v : Int) - 65536 := rfl

theorem signedOf_32 (v : Nat) : signedOf 32 v = if v < 2147483648 then (v : Int) else (v : Int) - 4294967296 := rfl

/-! ### The DEC operations by their outcome -/

/-- Each DEC operation with the length it needs; what it delivers is a value of the frame (R141 to R144). -/
theorem exec_dec_eq {p : Instr × Nat} (hp : p ∈ [(Instr.decStatus, 3), (.decI16, 4), (.decI32, 6), (.decPos64, 8)]) :
    p.2 ≤ 8 ∧ ∃ value, ∀ s : State, s.fsm = .idle → exec p.1 s = decodeFrame p.2 value s := by
  simp only [List.mem_cons, List.not_mem_nil, or_false] at hp
  rcases hp with rfl | rfl | rfl | rfl
  · exact ⟨by simp, _, fun s h => exec_decStatus_idle s h⟩
  · exact ⟨by simp, _, fun s h => exec_decI16_idle h⟩
  · exact ⟨by simp, _, fun s h => exec_decI32_idle h⟩
  · exact ⟨by simp, _, fun s h => exec_decPos64_idle h⟩

theorem decodeFrame_no_result (need : Nat) (value : List Byte → BitVec 64) {s : State} (hres : s.res ≠ .ok) :
    decodeFrame need value s = .next { s with rdata := 0#64, rvalid := false, ack := some .accepted } := by
  rw [decodeFrame, if_pos hres]
  rfl

theorem decodeFrame_too_short {need : Nat} (value : List Byte → BitVec 64) {s : State} (hok : s.res = .ok)
    (hshort : s.rxlen.toNat < need) : decodeFrame need value s = .next { s with ack := some .badReq } := by
  rw [decodeFrame, if_neg (by simp [hok]), if_pos hshort]
  rfl

/-- RXBUF has at least 8 bytes, which every value fits in (R9). -/
theorem decodeFrame_value {need : Nat} (value : List Byte → BitVec 64) (hneed : need ≤ 8) {s : State}
    (hwf : s.BuffersWf) (hok : s.res = .ok) (henough : need ≤ s.rxlen.toNat) :
    decodeFrame need value s =
      .next { s with rdata := value s.rxbuf, rvalid := true, ack := some .accepted } := by
  obtain ⟨⟨_, _, _, _, _, _, hcapacity, _⟩, _, hrx⟩ := hwf
  exact decodeFrame_delivers value hok henough (by omega)

/-! ### A frame in RXBUF -/

theorem byteAt_of_take_eq {f g : List Byte} {n i : Nat} (h : f.take n = g) (hi : i < n) : byteAt f i = byteAt g i := by
  rw [← h, byteAt, byteAt]
  simp [List.getD_eq_getElem?_getD, hi]

theorem valueI16_of_frame {f : List Byte} {a : Byte} {x : Int} (h : f.take 4 = frameI16 a x) (hmin : -32768 ≤ x)
    (hmax : x < 32768) : valueI16 f = BitVec.ofInt 64 x := by
  have hbytes : [byteAt f 1, byteAt f 2] = beBytesInt 2 x := by
    rw [byteAt_of_take_eq h (by simp), byteAt_of_take_eq h (by simp)]
    rfl
  rw [valueI16, hbytes]
  exact congrArg _ (signedOf_beValue_beBytesInt (by simp) hmin hmax)

theorem valueI32_of_frame {f : List Byte} {a : Byte} {x : Int} (h : f.take 6 = frameI32 a x) (hmin : -2147483648 ≤ x)
    (hmax : x < 2147483648) : valueI32 f = BitVec.ofInt 64 x := by
  have hbytes : carrierBytes f = beBytesInt 4 x := by
    rw [carrierBytes, byteAt_of_take_eq h (by simp), byteAt_of_take_eq h (by simp), byteAt_of_take_eq h (by simp),
      byteAt_of_take_eq h (by simp)]
    rfl
  rw [valueI32, hbytes]
  exact congrArg _ (signedOf_beValue_beBytesInt (by simp) hmin hmax)

theorem valuePos64_of_frame {f : List Byte} {a : Byte} {x : Int} (h : f.take 8 = framePos64 a x)
    (hmin : -140737488355328 ≤ x) (hmax : x < 140737488355328) : valuePos64 f = BitVec.ofInt 64 x := by
  have hbytes : positionBytes f = beBytesInt 6 x := by
    rw [positionBytes, carrierBytes, byteAt_of_take_eq h (by simp), byteAt_of_take_eq h (by simp),
      byteAt_of_take_eq h (by simp), byteAt_of_take_eq h (by simp), byteAt_of_take_eq h (by simp),
      byteAt_of_take_eq h (by simp)]
    rfl
  rw [valuePos64_eq, hbytes]
  exact congrArg _ (signedOf_beValue_beBytesInt (by simp) hmin hmax)

/-! ### The statements -/

/-- Settles O16: one lemma per case, for the length and the value of each operation. -/
theorem decodingIsGated : Obligations.DecodingIsGated := by
  unfold Obligations.DecodingIsGated
  intro p hp
  obtain ⟨hneed, value, hexec⟩ := exec_dec_eq hp
  refine ⟨value, fun s => ⟨fun hidle hres => ?_, fun hidle hok hshort => ?_, fun hidle hok henough hwf => ?_⟩⟩ <;>
    rw [hexec s hidle]
  · exact decodeFrame_no_result p.2 value hres
  · exact decodeFrame_too_short value hok hshort
  · exact decodeFrame_value value hneed hwf hok henough

/-- Settles O18: the value is the signed reading of two bytes. -/
theorem decI16DeliversSigned16 : Obligations.DecI16DeliversSigned16 := by
  unfold Obligations.DecI16DeliversSigned16
  refine ⟨by decide, fun s hwf hidle hok => ?_⟩
  rw [exec_decI16_idle hidle]
  refine ⟨decodeFrame_too_short _ hok, fun henough => ⟨_, decodeFrame_value _ (by simp) hwf hok henough, ?_⟩⟩
  rw [valueI16_toInt, signedOf_16, beValue_pair]

/-- Settles O19: the value is the signed reading of the four carrier bytes. -/
theorem decI32DeliversSigned32 : Obligations.DecI32DeliversSigned32 := by
  unfold Obligations.DecI32DeliversSigned32
  refine ⟨by decide, fun s hwf hidle hok => ?_⟩
  rw [exec_decI32_idle hidle]
  refine ⟨decodeFrame_too_short _ hok, fun henough => ⟨_, decodeFrame_value _ (by simp) hwf hok henough, ?_⟩⟩
  rw [valueI32_toInt, signedOf_32, beValue_carrierBytes]

/-- Settles O20: the value is written with its carrier and sub-position, and is their 48 bits sign-extended. -/
theorem decPos64DeliversPosition : Obligations.DecPos64DeliversPosition := by
  unfold Obligations.DecPos64DeliversPosition
  refine ⟨by decide, fun s hwf hidle hok => ?_⟩
  rw [exec_decPos64_idle hidle]
  have hcarrier := beValue_carrierBytes_lt s.rxbuf
  have hsub := beValue_pair_lt (byteAt s.rxbuf 5) (byteAt s.rxbuf 6)
  refine ⟨decodeFrame_too_short _ hok, fun henough => ⟨_, decodeFrame_value _ (by simp) hwf hok henough, ?_, ?_, ?_,
    valuePos64_eq_signExtend _⟩⟩ <;> rw [valuePos64_toInt, signedOf_32]
  · rw [beValue_carrierBytes, beValue_pair]
  · split <;> omega
  · split <;> omega

/-- Settles O21: all four values are read from the same leading bytes. -/
theorem narrowDecodingReadsMostSignificant : Obligations.NarrowDecodingReadsMostSignificant := by
  unfold Obligations.NarrowDecodingReadsMostSignificant
  intro s hwf hidle hok hlen
  refine ⟨_, _, _, _, (exec_decStatus_idle s hidle).trans (decodeFrame_value _ (by simp) hwf hok (by omega)),
    (exec_decI16_idle hidle).trans (decodeFrame_value _ (by simp) hwf hok (by omega)),
    (exec_decI32_idle hidle).trans (decodeFrame_value _ (by simp) hwf hok (by omega)),
    (exec_decPos64_idle hidle).trans (decodeFrame_value _ (by simp) hwf hok hlen), ?_, ?_, ?_, by simp⟩
  · simp only [valueI32_toInt, valuePos64_toInt]
    have hsub := beValue_pair_lt (byteAt s.rxbuf 5) (byteAt s.rxbuf 6)
    omega
  · have hlow := beValue_pair_lt (byteAt s.rxbuf 3) (byteAt s.rxbuf 4)
    have hsplit : beValue (carrierBytes s.rxbuf) =
        beValue [byteAt s.rxbuf 1, byteAt s.rxbuf 2] * 65536 + beValue [byteAt s.rxbuf 3, byteAt s.rxbuf 4] := by
      simpa [carrierBytes] using
        beValue_append [byteAt s.rxbuf 1, byteAt s.rxbuf 2] [byteAt s.rxbuf 3, byteAt s.rxbuf 4]
    simp only [valueI16_toInt, valueI32_toInt, signedOf_16, signedOf_32, hsplit]
    split <;> split <;> omega
  · have h1 := (byteAt s.rxbuf 1).isLt
    have h2 := (byteAt s.rxbuf 2).isLt
    simp only [valueStatus_toInt, valueI16_toInt, signedOf_16, beValue_pair]
    split <;> omega

/-- Settles O22: the bytes in RXBUF are the device's, and reading them inverts writing them. -/
theorem decodingInvertsTheDevice : Obligations.DecodingInvertsTheDevice := by
  unfold Obligations.DecodingInvertsTheDevice
  intro s a x hwf hidle hok
  refine ⟨fun hmin hmax hlen hframe => ?_, fun hmin hmax hlen hframe => ?_, fun hmin hmax hlen hframe => ?_⟩
  · rw [exec_decI16_idle hidle, decodeFrame_value _ (by simp) hwf hok (by simp [hlen]),
      valueI16_of_frame hframe hmin hmax]
  · rw [exec_decI32_idle hidle, decodeFrame_value _ (by simp) hwf hok (by simp [hlen]),
      valueI32_of_frame hframe hmin hmax]
  · rw [exec_decPos64_idle hidle, decodeFrame_value _ (by simp) hwf hok (by simp [hlen]),
      valuePos64_of_frame hframe hmin hmax]

/-- Settles O23: a decoding reads RES, RXLEN and RXBUF, which no host operation but XFER writes. -/
theorem resultsStayUntilXfer : Obligations.ResultsStayUntilXfer := by
  unfold Obligations.ResultsStayUntilXfer
  intro i hi j s t u hj hwf hidle ht haccepted hu
  have hpair : ∃ need, (i, need) ∈ [(Instr.decStatus, 3), (.decI16, 4), (.decI32, 6), (.decPos64, 8)] := by
    simp only [List.mem_cons, List.not_mem_nil, or_false] at hi
    rcases hi with rfl | rfl | rfl | rfl <;> simp
  obtain ⟨need, hpair⟩ := hpair
  obtain ⟨hneed, value, hexec⟩ := exec_dec_eq hpair
  obtain ⟨_, _, _, _, _, hcall⟩ := exec_writes_only hu
  obtain ⟨hrxlen, _, hfsm, hres⟩ := hcall hj
  have hrxbuf := (exec_hostKeeps hu).rxbuf
  have huwf := hwf.of_sameForm (exec_sameForm j s u hu)
  rw [hexec s hidle] at ht
  rw [hexec u (hfsm.trans hidle)]
  by_cases hok : s.res = .ok
  case neg =>
    cases (decodeFrame_no_result need value hok).symm.trans ht
    exact ⟨_, decodeFrame_no_result need value (hres ▸ hok), rfl, rfl, rfl⟩
  case pos =>
    obtain hshort | henough := Nat.lt_or_ge s.rxlen.toNat need
    · cases (decodeFrame_too_short value hok hshort).symm.trans ht
      cases haccepted
    · cases (decodeFrame_value value hneed hwf hok henough).symm.trans ht
      exact ⟨_, decodeFrame_value value hneed huwf (hres.trans hok) (hrxlen ▸ henough), congrArg value hrxbuf, rfl, rfl⟩

end Sys2Proof.Machine
end

section
/-! SUPPORT. Runs of whole attempts: ticks that only count, an attempt that fails by a write error or by silence (R168 (b)),
and the statements about calls all of whose attempts fail so. -/

namespace Sys2Proof.Machine

open Sys2Proof.Config

/-! ### Runs -/

theorem State.Inv.of_stepsFrom {n : Nat} {s t : State} (hinv : s.Inv) (hrun : stepsFrom n s = some t) : t.Inv := by
  induction n generalizing s with
  | zero =>
    cases hrun
    exact hinv
  | succ n ih =>
    obtain ⟨u, hu⟩ := hinv.step_next
    exact ih (hinv.of_step hu) ((stepsFrom_succ n hu).symm.trans hrun)

/-- A run of `m` steps and then one of `n`. -/
theorem stepsFrom_trans {m n : Nat} {s t u : State} (hm : stepsFrom m s = some t) (hn : stepsFrom n t = some u) :
    stepsFrom (m + n) s = some u := by
  rw [stepsFrom_add, hm, Option.bind_some, hn]

/-- Ticks on a silent link, within the timeout, only count (R158). -/
theorem stepsFrom_ticks {s : State} (n : Nat) {moves : List Move} (hreceiving : s.fsm = .sync ∨ s.fsm = .accum)
    (hq : s.rxq = []) (hagenda : s.agenda = List.replicate n .tick ++ moves)
    (hintime : s.timer.toNat + n ≤ s.cfg.timeoutTicks) :
    stepsFrom n s = some { s with agenda := moves, timer := s.timer + BitVec.ofNat 16 n } := by
  induction n generalizing s with
  | zero =>
    rw [List.replicate_zero, List.nil_append] at hagenda
    simp [← hagenda]
  | succ n ih =>
    have hstep : step s = .next { s with
        agenda := List.replicate n .tick ++ moves, timer := s.timer + 1#16 } := by
      rw [step_tick (.inl (s.busy_of_receiving hreceiving)) hagenda (.inr hq)]
      exact congrArg _ (tickStep_counts (s := { s with agenda := List.replicate n .tick ++ moves }) hreceiving
        (by simp only; omega))
    have hcount : (s.timer + 1#16).toNat ≤ s.timer.toNat + 1 := by
      rw [BitVec.toNat_add]
      exact Nat.mod_le _ _
    refine (stepsFrom_succ n hstep).trans ((ih ?_ ?_ ?_ ?_).trans ?_)
    · exact hreceiving
    · exact hq
    · rfl
    · simp only
      omega
    · simp only [BitVec.ofNat_add, BitVec.add_assoc, BitVec.add_comm 1#16]

/-! ### An attempt that fails -/

/-- What an attempt that fails by itself leaves: the attempt is counted, what was received is cleared, the frame is out as
far as it got, and the call goes on or ends with the cause (R152 to R154, R158). -/
structure State.AttemptOver (s : State) (a : Option Nat) (moves : List Move) (t : State) : Prop where
  agenda : t.agenda = moves
  att : t.att.toNat = s.att.toNat + 1
  rxq : t.rxq = []
  rxcnt : t.rxcnt = 0#4
  acc : t.acc = 0#8
  txs : t.txs = s.txs ++ attemptEmits s.txFrame a
  txbuf : t.txbuf = s.txbuf
  txlen : t.txlen = s.txlen
  rdata : t.rdata = s.rdata
  rvalid : t.rvalid = s.rvalid
  requests : t.requests = s.requests
  cfg : t.cfg = s.cfg
  retries : s.att.toNat + 1 < s.cfg.maxAttempts → t.fsm = .send
  ends : s.att.toNat + 1 = s.cfg.maxAttempts →
    t.fsm = .idle ∧ t.res = if a.isSome then .errWrite else .errTimeout

/-- After SEND the outcome of the attempt is that of its failure, whatever the timer and the engine state then were. -/
theorem attemptFail_attemptOver {s : State} (hinv : s.Inv) (hsend : s.fsm = .send) (a : Option Nat) (moves : List Move)
    (timer : BitVec 16) (fsm : Fsm) :
    s.AttemptOver a moves (attemptFail (if a.isSome then .write else .timeout) { s with
      agenda := moves, att := s.att + 1#4, rxq := [], rxcnt := 0#4, acc := 0#8,
      txs := s.txs ++ attemptEmits s.txFrame a, timer := timer, fsm := fsm }) := by
  have hatt := hinv.att_add_one_of_send hsend
  obtain ⟨hleft, he⟩ | ⟨hspent, he⟩ := attemptFail_cases (if a.isSome then .write else .timeout) { s with
      agenda := moves, att := s.att + 1#4, rxq := [], rxcnt := 0#4, acc := 0#8,
      txs := s.txs ++ attemptEmits s.txFrame a, timer := timer, fsm := fsm } <;> rw [he]
  · simp only [hatt] at hleft
    exact ⟨rfl, hatt, rfl, rfl, rfl, rfl, rfl, rfl, rfl, rfl, rfl, rfl, fun _ => rfl, by omega⟩
  · simp only [hatt] at hspent
    refine ⟨rfl, hatt, rfl, rfl, rfl, rfl, rfl, rfl, rfl, rfl, rfl, rfl, by omega, fun _ => ⟨rfl, ?_⟩⟩
    cases a <;> rfl

/-- A SEND whose write succeeds, and ticks within the timeout (R152, R158). -/
theorem stepsFrom_send_ticks {s : State} (hinv : s.Inv) (hsend : s.fsm = .send) (n : Nat) {moves : List Move}
    (hagenda : s.agenda = .engine .ok :: (List.replicate n .tick ++ moves)) (hintime : n ≤ s.cfg.timeoutTicks) :
    stepsFrom (n + 1) s = some { s with
      agenda := moves, att := s.att + 1#4, rxq := [], rxcnt := 0#4, acc := 0#8, txs := s.txs ++ s.txFrame,
      timer := BitVec.ofNat 16 n, fsm := .sync } := by
  have hstep := (step_engine_send hagenda hsend).trans
    (sendStep_ok (s := { s with agenda := List.replicate n .tick ++ moves }) hinv.txlen_le_txbuf_length)
  refine (stepsFrom_succ n hstep).trans ((stepsFrom_ticks n (moves := moves) ?_ ?_ ?_ ?_).trans ?_)
  · exact .inl rfl
  · rfl
  · rfl
  · simpa using hintime
  · simp only [BitVec.zero_add]
    rfl

/-- One attempt that meets a write error or silence, from its SEND to its failure. -/
theorem stepsFrom_failingAttempt {s : State} (hinv : s.Inv) (hsend : s.fsm = .send) (a : Option Nat) {moves : List Move}
    (hagenda : s.agenda = failingAttempt s.cfg a ++ moves) :
    ∃ t, stepsFrom (failingAttempt s.cfg a).length s = some t ∧ s.AttemptOver a moves t := by
  cases a with
  | some k =>
    have hstep := (step_engine_send hagenda hsend).trans
      (sendStep_err (s := { s with agenda := moves }) hinv.txlen_le_txbuf_length k)
    exact ⟨_, stepsFrom_succ 0 hstep, attemptFail_attemptOver hinv hsend (some k) moves s.timer s.fsm⟩
  | none =>
    have hsplit : s.agenda =
        .engine .ok :: (List.replicate s.cfg.timeoutTicks .tick ++ (.tick :: moves)) := by
      rw [hagenda, failingAttempt, List.replicate_succ']
      simp
    have hrun := stepsFrom_send_ticks hinv hsend s.cfg.timeoutTicks hsplit le_rfl
    obtain ⟨⟨⟨_, _, _, hticks, _⟩, _⟩, _⟩ := id hinv
    have hlate : s.cfg.timeoutTicks < (BitVec.ofNat 16 s.cfg.timeoutTicks).toNat + 1 := by
      rw [BitVec.toNat_ofNat]
      omega
    have hlen : (failingAttempt s.cfg none).length = s.cfg.timeoutTicks + 1 + 1 := by simp [failingAttempt]
    rw [hlen]
    refine ⟨_, stepsFrom_trans hrun (stepsFrom_succ 0 ?_), attemptFail_attemptOver hinv hsend none moves
      (BitVec.ofNat 16 s.cfg.timeoutTicks + 1#16) .sync⟩
    rw [step_tick (.inl (by simp)) rfl (.inr rfl)]
    exact congrArg _ (tickStep_timesOut (.inl rfl) hlate)

/-- While the timer of an attempt on a silent link has not run out, the call goes on. -/
theorem silent_attempt_runs {s : State} (hinv : s.Inv) (hsend : s.fsm = .send) {moves : List Move}
    (hagenda : s.agenda = failingAttempt s.cfg none ++ moves) {n : Nat} (hn : n < s.cfg.timeoutTicks + 2) :
    ∃ u, stepsFrom n s = some u ∧ u.fsm ≠ .idle := by
  cases n with
  | zero => exact ⟨s, rfl, by simp [hsend]⟩
  | succ n =>
    have hsplit : s.agenda = .engine .ok ::
        (List.replicate n .tick ++ (List.replicate (s.cfg.timeoutTicks + 1 - n) .tick ++ moves)) := by
      rw [hagenda, failingAttempt, ← List.append_assoc, ← List.replicate_add, Nat.add_sub_cancel' (by omega)]
      rfl
    exact ⟨_, stepsFrom_send_ticks hinv hsend n hsplit (by omega), by simp⟩

/-! ### All attempts fail -/

/-- Every attempt left to a call fails by itself; the last one ends it. -/
theorem stepsFrom_failingAttempts (attempts : List (Option Nat)) (last : Option Nat) {s : State} {moves : List Move}
    (hinv : s.Inv) (hsend : s.fsm = .send) (hleft : s.att.toNat + attempts.length + 1 = s.cfg.maxAttempts)
    (hagenda : s.agenda = (attempts ++ [last]).flatMap (failingAttempt s.cfg) ++ moves) :
    ∃ t, stepsFrom ((attempts ++ [last]).flatMap (failingAttempt s.cfg)).length s = some t ∧
      t.fsm = .idle ∧ t.res = (if last.isSome then .errWrite else .errTimeout) ∧
      t.att.toNat = s.cfg.maxAttempts ∧ t.rxcnt = 0#4 ∧ t.acc = 0#8 ∧ t.rvalid = s.rvalid ∧
      t.txs = s.txs ++ (attempts ++ [last]).flatMap (attemptEmits s.txFrame) ∧ t.rxq = [] ∧
      t.txbuf = s.txbuf ∧ t.rdata = s.rdata ∧ t.agenda = moves ∧ t.requests = s.requests := by
  induction attempts generalizing s with
  | nil =>
    rw [List.nil_append, List.flatMap_singleton] at hagenda ⊢
    obtain ⟨t, hrun, hover⟩ := stepsFrom_failingAttempt hinv hsend last hagenda
    obtain ⟨hidle, hres⟩ := hover.ends hleft
    exact ⟨t, hrun, hidle, hres, hover.att.trans hleft, hover.rxcnt, hover.acc, hover.rvalid,
      by rw [hover.txs, List.flatMap_singleton], hover.rxq, hover.txbuf, hover.rdata, hover.agenda, hover.requests⟩
  | cons a rest ih =>
    rw [List.length_cons] at hleft
    rw [List.cons_append, List.flatMap_cons] at hagenda ⊢
    rw [List.append_assoc] at hagenda
    obtain ⟨u, hrun, hover⟩ := stepsFrom_failingAttempt hinv hsend a hagenda
    have hatt := hover.att
    obtain ⟨t, hrun', hidle, hres, hspent, hcnt, hacc, hvalid, htxs, hrxq, htxbuf, hrdata, hagenda', hrequests⟩ :=
      ih (hinv.of_stepsFrom hrun) (hover.retries (by omega)) (by rw [hover.cfg]; omega)
        (by rw [hover.cfg]; exact hover.agenda)
    rw [hover.cfg] at hrun' hspent
    have hframe : u.txFrame = s.txFrame := by rw [State.txFrame, hover.txbuf, hover.txlen, State.txFrame]
    refine ⟨t, ?_, hidle, hres, hspent, hcnt, hacc, hvalid.trans hover.rvalid, ?_, hrxq, htxbuf.trans hover.txbuf,
      hrdata.trans hover.rdata, hagenda', hrequests.trans hover.requests⟩
    · rw [List.length_append]
      exact stepsFrom_trans hrun hrun'
    · rw [htxs, hover.txs, hframe, List.append_assoc, List.flatMap_cons]

theorem length_silentAttempts (p : Params) (k : Nat) :
    ((List.replicate k none).flatMap (failingAttempt p)).length = k * (p.timeoutTicks + 2) := by
  simp [failingAttempt, List.length_flatMap]

/-- A call on a silent link runs as long as an attempt is left to it. -/
theorem silent_call_runs (k : Nat) {s : State} {moves : List Move} (hinv : s.Inv) (hsend : s.fsm = .send)
    (hleft : s.att.toNat + k = s.cfg.maxAttempts)
    (hagenda : s.agenda = (List.replicate k none).flatMap (failingAttempt s.cfg) ++ moves) {n : Nat}
    (hn : n < k * (s.cfg.timeoutTicks + 2)) : ∃ u, stepsFrom n s = some u ∧ u.fsm ≠ .idle := by
  induction k generalizing s n with
  | zero => omega
  | succ k ih =>
    rw [List.replicate_succ, List.flatMap_cons, List.append_assoc] at hagenda
    obtain hfirst | ⟨m, rfl⟩ : n < s.cfg.timeoutTicks + 2 ∨ ∃ m, n = s.cfg.timeoutTicks + 2 + m :=
      (Nat.lt_or_ge n _).imp_right Nat.exists_eq_add_of_le
    · exact silent_attempt_runs hinv hsend hagenda hfirst
    · rw [Nat.succ_mul] at hn
      obtain ⟨t, hrun, hover⟩ := stepsFrom_failingAttempt hinv hsend none hagenda
      have hatt := hover.att
      have hlen : (failingAttempt s.cfg none).length = s.cfg.timeoutTicks + 2 := by simp [failingAttempt]
      have hmore : 0 < k := Nat.pos_of_ne_zero fun hzero => by
        rw [hzero] at hn
        omega
      obtain ⟨u, hrun', hbusy⟩ := ih (s := t) (n := m) (hinv.of_stepsFrom hrun) (hover.retries (by omega))
        (by rw [hover.cfg]; omega) (by rw [hover.cfg]; exact hover.agenda) (by rw [hover.cfg]; omega)
      rw [hlen] at hrun
      exact ⟨u, stepsFrom_trans hrun hrun', hbusy⟩

/-! ### The statements -/

/-- Settles O50: the attempts one after another, from none made; RVALID is 0 in a call (R38 (d)). -/
theorem writeErrorsAndSilenceEndTheCall : Obligations.WriteErrorsAndSilenceEndTheCall := by
  unfold Obligations.WriteErrorsAndSilenceEndTheCall
  intro s attempts last moves hinv hsend hatt hcount hagenda
  obtain ⟨_, _, ⟨_, hvalid, _⟩, _⟩ := hinv.callInv (by simp [hsend])
  have hleft : s.att.toNat + attempts.length + 1 = s.cfg.maxAttempts := by
    simp only [hatt, BitVec.toNat_ofNat]
    omega
  have hend := stepsFrom_failingAttempts attempts last hinv hsend hleft hagenda
  rwa [hvalid] at hend

/-- Settles O51: before the last move the call runs; P_MAX_ATTEMPTS silent attempts, of which there is at least one, end
it. -/
theorem silentCallLastsExactly : Obligations.SilentCallLastsExactly := by
  unfold Obligations.SilentCallLastsExactly
  intro s moves hinv hsend hatt hagenda
  have hzero : s.att.toNat = 0 := by simp [hatt]
  refine ⟨fun n hn => silent_call_runs s.cfg.maxAttempts hinv hsend (by omega) hagenda hn, ?ends⟩
  case ends =>
    obtain ⟨⟨⟨_, _, _, _, hone, _⟩, _⟩, _⟩ := id hinv
    have hsplit : List.replicate s.cfg.maxAttempts (none : Option Nat) =
        List.replicate (s.cfg.maxAttempts - 1) none ++ [none] := by
      rw [← List.replicate_succ', Nat.sub_add_cancel hone]
    rw [hsplit] at hagenda
    obtain ⟨t, hrun, hidle, hres, _, _, _, _, htxs, _, _, _, hagenda', _⟩ :=
      stepsFrom_failingAttempts _ none hinv hsend (by simp; omega) hagenda
    rw [← hsplit, length_silentAttempts] at hrun
    refine ⟨t, hrun, hidle, hres, hagenda', ?_⟩
    rw [htxs, ← hsplit]
    simp [attemptEmits, List.flatMap]

end Sys2Proof.Machine
end

section
/-! SUPPORT. Runs in which bytes arrive one by one, with gaps that stay within the timeout: noise, a valid frame, a stream
of address bytes (R166, R168 (a)), and the statements about them. -/

namespace Sys2Proof.Machine

open Sys2Proof.Config

/-! ### One byte arrives -/

theorem arrivals_cons (gap : Nat) (b : Byte) (rest : List (Nat × Byte)) :
    arrivals ((gap, b) :: rest) = List.replicate gap .tick ++ .append b :: .engine .ok :: arrivals rest := by
  simp [arrivals]

theorem length_arrivals_cons (gap : Nat) (b : Byte) (rest : List (Nat × Byte)) :
    (arrivals ((gap, b) :: rest)).length = gap + 2 + (arrivals rest).length := by
  rw [arrivals_cons, List.length_append, List.length_replicate, List.length_cons, List.length_cons]
  omega

theorem arrivals_append (xs ys : List (Nat × Byte)) : arrivals (xs ++ ys) = arrivals xs ++ arrivals ys := by
  simp [arrivals]

/-- A gap within the timeout, then a byte, which the engine examines at once. -/
theorem stepsFrom_arrival {s : State} (hinv : s.Inv) (hreceiving : s.fsm = .sync ∨ s.fsm = .accum) (hq : s.rxq = [])
    {gap : Nat} {b : Byte} {moves : List Move}
    (hagenda : s.agenda = List.replicate gap .tick ++ .append b :: .engine .ok :: moves)
    (hintime : s.timer.toNat + gap ≤ s.cfg.timeoutTicks) :
    ∃ t, stepsFrom (gap + 2) s = some t ∧
      State.Examines { s with agenda := moves, timer := s.timer + BitVec.ofNat 16 gap, rxq := [] } b t := by
  have hticks := stepsFrom_ticks gap hreceiving hq hagenda hintime
  have hbusy := s.busy_of_receiving hreceiving
  have happend : step { s with agenda := .append b :: .engine .ok :: moves, timer := s.timer + BitVec.ofNat 16 gap } =
      .next { s with agenda := .engine .ok :: moves, timer := s.timer + BitVec.ofNat 16 gap, rxq := [b] } := by
    refine (step_append ?_ rfl).trans ?_
    · exact .inl hbusy
    · simp only [hq, List.nil_append]
  have hinv' := hinv.of_stepsFrom (stepsFrom_trans hticks (stepsFrom_succ 0 happend))
  obtain ⟨t, ht, hexamines⟩ := State.Inv.rxByteStep_examines
    (s := { s with agenda := moves, timer := s.timer + BitVec.ofNat 16 gap, rxq := [b] }) hinv' hreceiving rfl
  have hengine : step { s with
      agenda := .engine .ok :: moves, timer := s.timer + BitVec.ofNat 16 gap, rxq := [b] } = .next t := by
    refine (step_engine_receiving rfl ?_).trans ht
    exact hreceiving
  exact ⟨t, stepsFrom_trans hticks ((stepsFrom_succ 1 happend).trans (stepsFrom_succ 0 hengine)), hexamines⟩

/-! ### Noise -/

/-- Bytes that are not ADDR are discarded while nothing is accepted, and the timer goes on (R155). -/
theorem stepsFrom_noise (noise : List (Nat × Byte)) {s : State} {moves : List Move} (hinv : s.Inv)
    (hsync : s.fsm = .sync) (hq : s.rxq = []) (hnoise : ∀ x ∈ noise, x.2 ≠ s.addr)
    (hintime : s.timer.toNat + (noise.map Prod.fst).sum ≤ s.cfg.timeoutTicks)
    (hagenda : s.agenda = arrivals noise ++ moves) :
    stepsFrom (arrivals noise).length s = some { s with
      agenda := moves, timer := s.timer + BitVec.ofNat 16 (noise.map Prod.fst).sum } := by
  induction noise generalizing s with
  | nil =>
    have hnone : s.agenda = moves := hagenda
    simp [arrivals, ← hnone]
  | cons x rest ih =>
    obtain ⟨gap, b⟩ := x
    rw [List.map_cons, List.sum_cons] at hintime
    rw [arrivals_cons, List.append_assoc, List.cons_append, List.cons_append] at hagenda
    obtain ⟨t, hrun, hexamines⟩ := stepsFrom_arrival hinv (.inl hsync) hq hagenda (by omega)
    have htinv := hinv.of_stepsFrom hrun
    have hb : b ≠ s.addr := hnoise (gap, b) List.mem_cons_self
    cases hexamines with
    | collects haddr => exact absurd (haddr hsync) hb
    | completes haccum => cases hsync.symm.trans haccum
    | startsOver haccum => cases hsync.symm.trans haccum
    | discards =>
      have hcount : (s.timer + BitVec.ofNat 16 gap).toNat ≤ s.timer.toNat + gap := by
        rw [BitVec.toNat_add, BitVec.toNat_ofNat]
        exact (Nat.mod_le _ _).trans (Nat.add_le_add_left (Nat.mod_le _ _) _)
      rw [length_arrivals_cons]
      refine stepsFrom_trans hrun ((ih htinv ?_ ?_ ?_ ?_ ?_).trans ?_)
      · exact hsync
      · rfl
      · exact fun x hx => hnoise x (List.mem_cons_of_mem _ hx)
      · simp only
        omega
      · rfl
      · simp only [List.map_cons, List.sum_cons, BitVec.ofNat_add, BitVec.add_assoc, hq]

/-! ### A valid frame -/

theorem take_succ_set (l : List Byte) (k : Nat) (b : Byte) (h : k < l.length) :
    (l.set k b).take (k + 1) = l.take k ++ [b] := by
  rw [List.take_add_one, List.take_set_of_le le_rfl]
  simp [h]

/-- The frame check looks only at the frame. -/
theorem frameOk_of_take_eq {f g : List Byte} {n : Nat} (hn : 0 < n) (h : f.take n = g) (hg : FrameOk g n) :
    FrameOk f n := by
  have htake : f.take (n - 1) = g.take (n - 1) := by
    rw [← h, List.take_take, Nat.min_eq_left (Nat.sub_le _ _)]
  rw [FrameOk, byteAt_of_take_eq h (by omega), hg, checksum_congr f g (n - 1) htake]

/-- The rest of a valid frame, byte by byte, once `done` is accepted: the call succeeds with the frame in RXBUF, and the
rest of the state is as the engine leaves it (R155, R161). -/
theorem stepsFrom_frame (rest : List (Nat × Byte)) (done : List Byte) {s : State} {moves : List Move} (hinv : s.Inv)
    (hreceiving : s.fsm = .sync ∨ s.fsm = .accum) (hq : s.rxq = []) (hcnt : s.rxcnt.toNat = done.length)
    (hdone : s.rxbuf.take done.length = done) (hrest : rest ≠ [])
    (hlen : done.length + rest.length = s.rxlen.toNat) (haddr : byteAt (done ++ rest.map Prod.snd) 0 = s.addr)
    (hframe : FrameOk (done ++ rest.map Prod.snd) s.rxlen.toNat)
    (hhead : s.timer.toNat + (rest.map Prod.fst).headD 0 ≤ s.cfg.timeoutTicks)
    (htail : ∀ x ∈ rest.tail, x.1 ≤ s.cfg.timeoutTicks) (hagenda : s.agenda = arrivals rest ++ moves) :
    ∃ t, stepsFrom (arrivals rest).length s = some t ∧ t.fsm = .idle ∧ t.res = .ok ∧
      t.rxbuf.take s.rxlen.toNat = done ++ rest.map Prod.snd ∧ State.EngineKeeps { s with agenda := moves } t ∧
      t.att = s.att ∧ t.txs = s.txs := by
  induction rest generalizing s done with
  | nil => exact absurd rfl hrest
  | cons x rest ih =>
    obtain ⟨gap, b⟩ := x
    have hroom := hinv.rxcnt_lt_rxbuf_length hreceiving
    have hstored := hinv.frameOk_stored_iff hreceiving b
    have hsync : s.fsm = .sync → b = s.addr := by
      intro hfsm
      rw [(hinv.rxcnt_eq_zero_iff hreceiving).mpr hfsm] at hcnt
      rw [List.eq_nil_of_length_eq_zero hcnt.symm] at haddr
      exact haddr
    have htake : (s.rxbuf.set s.rxcnt.toNat b).take (done.length + 1) = done ++ [b] := by
      rw [hcnt, take_succ_set _ _ _ (hcnt ▸ hroom), hdone]
    rw [arrivals_cons, List.append_assoc, List.cons_append, List.cons_append] at hagenda
    rw [length_arrivals_cons]
    rw [List.length_cons] at hlen
    obtain ⟨u, hrun, hexamines⟩ := stepsFrom_arrival hinv hreceiving hq hagenda hhead
    have huinv := hinv.of_stepsFrom hrun
    cases hexamines with
    | discards hfsm hb => exact absurd (hsync hfsm) hb
    | collects _ hmore =>
      have hcount := hinv.rxcnt_add_one hreceiving
      have hmore' : rest ≠ [] := by
        rintro rfl
        simp only [List.length_nil] at hlen hmore
        omega
      have hnext : ∃ y more, rest = y :: more := List.exists_cons_of_ne_nil hmore'
      obtain ⟨t, hrun', hidle, hok, hbuf, hkeeps, hatt, htxs⟩ := ih (done ++ [b]) huinv (.inr rfl) rfl
        (by simp only [hcount, hcnt, List.length_append, List.length_singleton])
        (by rw [List.length_append, List.length_singleton]; exact htake) hmore'
        (by simp only [List.length_append, List.length_singleton]; omega)
        (by simpa using haddr) (by simpa using hframe)
        (by obtain ⟨y, more, rfl⟩ := hnext; simpa using htail y (by simp))
        (fun y hy => htail y (List.mem_of_mem_tail hy)) rfl
      refine ⟨t, stepsFrom_trans hrun hrun', hidle, hok, by simpa using hbuf, ?_, hatt, htxs⟩
      exact { hkeeps with }
    | completes _ hlast _ =>
      have hnone : rest = [] := List.eq_nil_of_length_eq_zero (by simp only at hlast; omega)
      subst hnone
      refine ⟨_, hrun, rfl, rfl, ?_, ⟨rfl, rfl, rfl, rfl, rfl, rfl, rfl, rfl, rfl, rfl, rfl⟩, rfl, rfl⟩
      rw [← hlen]
      exact htake
    | startsOver _ hlast hsum =>
      have hnone : rest = [] := List.eq_nil_of_length_eq_zero (by simp only at hlast; omega)
      subst hnone
      have hcheck := frameOk_of_take_eq (by omega) (by rw [← hlen]; exact htake) hframe
      exact absurd ((hstored hlast).mp hcheck).symm hsum

/-- A whole frame that arrives in SYNC. -/
theorem stepsFrom_whole_frame (frame : List (Nat × Byte)) {s : State} {moves : List Move} (hinv : s.Inv)
    (hsync : s.fsm = .sync) (hq : s.rxq = []) (hlen : frame.length = s.rxlen.toNat)
    (haddr : byteAt (frame.map Prod.snd) 0 = s.addr) (hframe : FrameOk (frame.map Prod.snd) s.rxlen.toNat)
    (hhead : s.timer.toNat + (frame.map Prod.fst).headD 0 ≤ s.cfg.timeoutTicks)
    (htail : ∀ x ∈ frame.tail, x.1 ≤ s.cfg.timeoutTicks) (hagenda : s.agenda = arrivals frame ++ moves) :
    ∃ t, stepsFrom (arrivals frame).length s = some t ∧ t.fsm = .idle ∧ t.res = .ok ∧
      t.rxbuf.take s.rxlen.toNat = frame.map Prod.snd ∧ State.EngineKeeps { s with agenda := moves } t ∧
      t.att = s.att ∧ t.txs = s.txs := by
  have hcnt := (hinv.rxcnt_eq_zero_iff (.inl hsync)).mpr hsync
  have hroom := hinv.rxcnt_lt_rxlen (.inl hsync)
  have hne : frame ≠ [] := by
    rintro rfl
    rw [← hlen] at hroom
    simp at hroom
  exact stepsFrom_frame frame [] hinv (.inl hsync) hq (by simp [hcnt]) rfl hne (by simpa using hlen) haddr hframe hhead
    htail hagenda

/-! ### A stream of address bytes -/

/-- 2 to 7 address bytes 0xE0 do not add up to 0xE0: 0xE0 is 7 * 32, so one byte less would have to be a multiple of 8
(R235). -/
theorem acc_ne_address {k : Nat} (hmin : 2 ≤ k) (hmax : k ≤ 7) : BitVec.ofNat 8 (k * 0xE0) ≠ 0xE0#8 := by
  intro h
  have hnat := congrArg BitVec.toNat h
  simp only [BitVec.toNat_ofNat] at hnat
  omega

/-- One more address byte keeps ACC the multiple of 0xE0 that RXCNT says, and the call in its attempt. -/
theorem stepsFrom_address_stream (n : Nat) {s : State} {gap : Nat} {moves : List Move} (hinv : s.Inv)
    (hreceiving : s.fsm = .sync ∨ s.fsm = .accum) (hq : s.rxq = []) (htimer : s.timer = 0#16)
    (haddr : s.addr = 0xE0#8) (hlen : s.rxlen.toNat ≤ 8) (hacc : s.acc = BitVec.ofNat 8 (s.rxcnt.toNat * 0xE0))
    (hgap : gap ≤ s.cfg.timeoutTicks) (hagenda : s.agenda = arrivals (List.replicate n (gap, 0xE0#8)) ++ moves) :
    ∃ t, stepsFrom (arrivals (List.replicate n (gap, 0xE0#8))).length s = some t ∧
      (t.fsm = .sync ∨ t.fsm = .accum) ∧ t.att = s.att ∧ t.agenda = moves := by
  induction n generalizing s with
  | zero => exact ⟨s, rfl, hreceiving, rfl, hagenda⟩
  | succ n ih =>
    rw [List.replicate_succ, arrivals_cons, List.append_assoc, List.cons_append, List.cons_append] at hagenda
    rw [List.replicate_succ, length_arrivals_cons]
    obtain ⟨u, hrun, hexamines⟩ := stepsFrom_arrival hinv hreceiving hq hagenda (by simpa [htimer] using hgap)
    have huinv := hinv.of_stepsFrom hrun
    cases hexamines with
    | discards _ hb => exact absurd haddr.symm hb
    | completes _ hlast hsum =>
      obtain ⟨⟨⟨_, _, _, _, _, _, _, _, hleast, _⟩, _⟩, _, _, _, hbusy, _⟩ := id hinv
      obtain ⟨_, _, _, hmin, _⟩ := hbusy (s.busy_of_receiving hreceiving)
      simp only at hlast hsum
      exact absurd (hacc.symm.trans hsum) (acc_ne_address (by omega) (by omega))
    | collects =>
      have hcount := hinv.rxcnt_add_one hreceiving
      obtain ⟨t, hrun', hend, hatt, hagenda'⟩ := ih huinv (.inr rfl) rfl rfl haddr hlen
        (by simp only [hcount, hacc, Nat.succ_mul, BitVec.ofNat_add]) hgap rfl
      exact ⟨t, stepsFrom_trans hrun hrun', hend, hatt, hagenda'⟩
    | startsOver =>
      obtain ⟨t, hrun', hend, hatt, hagenda'⟩ := ih huinv (.inl rfl) rfl rfl haddr hlen (by simp) hgap rfl
      exact ⟨t, stepsFrom_trans hrun hrun', hend, hatt, hagenda'⟩

/-! ### The statements -/

/-- Settles O52: the noise moves only the timer, then the frame ends the call. -/
theorem noiseThenFrameSucceeds : Obligations.NoiseThenFrameSucceeds := by
  unfold Obligations.NoiseThenFrameSucceeds
  intro s noise frame moves hinv hsync hq htimer hnoise hlen haddr hframe hhead htail hagenda
  rw [arrivals_append, List.append_assoc] at hagenda
  have hrun := stepsFrom_noise noise hinv hsync hq hnoise (by simp only [htimer, BitVec.toNat_ofNat]; omega) hagenda
  have hcount : (s.timer + BitVec.ofNat 16 (noise.map Prod.fst).sum).toNat ≤ (noise.map Prod.fst).sum := by
    rw [htimer, BitVec.zero_add, BitVec.toNat_ofNat]
    exact Nat.mod_le _ _
  obtain ⟨t, hrun', hidle, hok, hbuf, hkeeps, hatt, htxs⟩ := stepsFrom_whole_frame frame (hinv.of_stepsFrom hrun)
    (moves := moves) hsync hq hlen haddr hframe (by simp only; omega) htail rfl
  rw [arrivals_append, List.length_append]
  exact ⟨t, stepsFrom_trans hrun hrun', hidle, hok, hbuf, hkeeps.rxlen, hatt, htxs, hkeeps.agenda⟩

/-- Settles O53: in SYNC nothing is accepted, and ACC is zero times 0xE0. -/
theorem addressStreamNeverEndsCall : Obligations.AddressStreamNeverEndsCall := by
  unfold Obligations.AddressStreamNeverEndsCall
  intro s n gap moves hinv hsync hq htimer haddr hlen hgap hagenda
  obtain ⟨_, _, hnothing, _⟩ := id hinv
  obtain ⟨hcnt, hacc⟩ := hnothing hsync
  exact stepsFrom_address_stream n hinv (.inl hsync) hq htimer haddr hlen (by simp [hcnt, hacc]) hgap hagenda

end Sys2Proof.Machine
end

section
/-! SUPPORT. A typed call from its first request to its value (R113): the encoding, the start of the call, one SEND, the
answer's bytes, the decoding; and the statement about it. -/

namespace Sys2Proof.Machine

open Sys2Proof.Config

/-! ### The answer's frame (R146) -/

theorem length_withTrailer (body : List Byte) : (withTrailer body).length = body.length + 1 := by
  simp [withTrailer]

theorem frameOk_withTrailer (body : List Byte) : FrameOk (withTrailer body) (body.length + 1) := by
  simpa [withTrailer] using frameOk_append_checksum body []

/-! ### An encoding as a request -/

/-- An operation that encodes some frame, whatever state of IDLE it finds. -/
def EncodesFrame (i : Instr) : Prop :=
  ∀ s : State, s.fsm = .idle → s.BuffersWf →
    ∃ operands, operands.length ≤ 6 ∧ exec i s = .next (s.encoded operands)

theorem encodesFrame_encS (cmd : Byte) : EncodesFrame (Instr.encS cmd) :=
  fun _ hidle hwf => ⟨_, by simp, exec_encS_idle hidle hwf cmd⟩

theorem encodesFrame_encP8 (cmd v8 : Byte) : EncodesFrame (Instr.encP8 cmd v8) :=
  fun _ hidle hwf => ⟨_, by simp, exec_encP8_idle hidle hwf cmd v8⟩

theorem encodesFrame_encP16 (cmd : Byte) (v16 : BitVec 16) : EncodesFrame (Instr.encP16 cmd v16) := by
  intro s hidle hwf
  rw [eq_append_of_bytes16 v16]
  exact ⟨_, by simp, exec_encP16_idle hidle hwf cmd _ _⟩

theorem encodesFrame_encP8P32 (cmd v8 : Byte) (v32 : BitVec 32) : EncodesFrame (Instr.encP8P32 cmd v8 v32) := by
  intro s hidle hwf
  rw [eq_append_of_bytes32 v32]
  exact ⟨_, by simp, exec_encP8P32_idle hidle hwf cmd v8 _ _ _ _⟩

/-! ### From the requests to the receive phase -/

theorem State.encoded_txlen_ne_zero (s : State) {operands : List Byte} (h : operands.length ≤ 6) :
    (s.encoded operands).txlen ≠ 0#4 := by
  intro hzero
  have hnat : (BitVec.ofNat 4 (operands.length + 2)).toNat = 0 := congrArg BitVec.toNat hzero
  rw [BitVec.toNat_ofNat] at hnat
  omega

/-- The encoding, the start of the call and the first SEND, three steps: the engine waits for the answer, what was queued
before is gone (R74), and the attempt is the first. -/
theorem stepsFrom_requests_and_send {s : State} {enc : Instr} {len : BitVec 4} {later : List Desc} {moves : List Move}
    (henc : EncodesFrame enc) (hinv : s.Inv) (hidle : s.fsm = .idle) (hmin : s.cfg.minRxLen ≤ len.toNat)
    (hmax : len.toNat ≤ s.cfg.maxFrame) (hrequests : s.requests = encode enc :: encode (.xfer len) :: later)
    (hagenda : s.agenda = .engine .ok :: moves) :
    ∃ u, stepsFrom 3 s = some u ∧ u.fsm = .sync ∧ u.rxq = [] ∧ u.timer = 0#16 ∧ u.rxlen = len ∧ u.addr = s.addr ∧
      u.att = 1#4 ∧ u.requests = later ∧ u.agenda = moves := by
  obtain ⟨operands, hoperands, hexec⟩ := henc { s with requests := encode (.xfer len) :: later } hidle hinv.1
  have hencode := (step_encode hidle hrequests).trans hexec
  have hframe := { s with requests := encode (.xfer len) :: later }.encoded_txlen_ne_zero hoperands
  have hinv₁ := hinv.of_step hencode
  generalize hs₁ : { s with requests := encode (.xfer len) :: later }.encoded operands = s₁ at *
  have hkept : s₁.fsm = .idle ∧ s₁.requests = encode (.xfer len) :: later ∧ s₁.cfg = s.cfg ∧ s₁.addr = s.addr ∧
      s₁.agenda = s.agenda := by
    rw [← hs₁]
    exact ⟨hidle, rfl, rfl, rfl, rfl⟩
  obtain ⟨hidle₁, hrequests₁, hcfg₁, haddr₁, hagenda₁⟩ := hkept
  have hstart := (step_encode hidle₁ hrequests₁).trans
    (exec_xfer_starts (s := { s₁ with requests := later }) hidle₁ hframe (hcfg₁ ▸ hmin) (hcfg₁ ▸ hmax))
  have hsend := stepsFrom_send_ticks (hinv₁.of_step hstart) rfl 0 (hagenda₁.trans hagenda) (Nat.zero_le _)
  exact ⟨_, stepsFrom_trans (stepsFrom_succ 0 hencode) (stepsFrom_trans (stepsFrom_succ 0 hstart) hsend), rfl, rfl, rfl,
    rfl, haddr₁, rfl, rfl, rfl⟩

/-! ### From the answer to the value -/

theorem length_arrivals_at_once (bytes : List Byte) :
    (arrivals (bytes.map fun b => (0, b))).length = 2 * bytes.length := by
  induction bytes with
  | nil => rfl
  | cons b rest ih =>
    rw [List.map_cons, length_arrivals_cons, ih, List.length_cons]
    omega

/-- A call whose device answers at once with a valid frame of the expected length: the decoding that follows delivers the
frame's value, after one attempt. -/
theorem stepsFrom_call {s : State} {enc dec : Instr} {len : BitVec 4} {need : Nat} {value : List Byte → BitVec 64}
    {answer : List Byte} {x : Int} {later : List Desc} {moves : List Move} (henc : EncodesFrame enc)
    (hdec : ∀ s : State, s.fsm = .idle → exec dec s = decodeFrame need value s) (hneed : need ≤ len.toNat)
    (hcapacity : len.toNat ≤ 8) (hinv : s.Inv) (hidle : s.fsm = .idle) (hmin : s.cfg.minRxLen ≤ len.toNat)
    (hlen : answer.length = len.toNat) (haddr : byteAt answer 0 = s.addr) (hframe : FrameOk answer len.toNat)
    (hvalue : ∀ f, f.take len.toNat = answer → (value f).toInt = x)
    (hrequests : s.requests = [enc, .xfer len, dec].map encode ++ later)
    (hagenda : s.agenda = .engine .ok :: arrivals (answer.map fun b => (0, b)) ++ moves) :
    ∃ t, stepsFrom (2 + 1 + 2 * answer.length + 1) s = some t ∧ t.fsm = .idle ∧ t.res = .ok ∧ t.rvalid = true ∧
      t.rdata.toInt = x ∧ t.att = 1#4 ∧ t.requests = later ∧ t.agenda = moves := by
  obtain ⟨⟨⟨_, _, _, _, _, _, hroom, _⟩, _⟩, _⟩ := id hinv
  obtain ⟨u, hrun, hsync, hq, htimer, hrxlen, haddr', hatt, hwaiting, hmoves⟩ :=
    stepsFrom_requests_and_send henc hinv hidle hmin (hcapacity.trans hroom) hrequests hagenda
  have hbytes : (answer.map fun b => ((0 : Nat), b)).map Prod.snd = answer := by simp
  obtain ⟨v, hrun', hidle', hok, hbuf, hkeeps, hatt', _⟩ :=
    stepsFrom_whole_frame (answer.map fun b => (0, b)) (hinv.of_stepsFrom hrun) hsync hq
      (by rw [List.length_map, hlen, hrxlen]) (by rw [hbytes, haddr, haddr']) (by rwa [hbytes, hrxlen])
      (by cases answer <;> simp [htimer])
      (fun x hx => by
        obtain ⟨b, _, rfl⟩ := List.mem_map.mp (List.mem_of_mem_tail hx)
        exact Nat.zero_le _) hmoves
  have hvinv := (hinv.of_stepsFrom hrun).of_stepsFrom hrun'
  have hdecode := (step_encode hidle' (hkeeps.requests.trans hwaiting)).trans
    ((hdec { v with requests := later } hidle').trans
      (decodeFrame_value value (hneed.trans hcapacity) hvinv.1 hok
        (by simp only [hkeeps.rxlen, hrxlen]; exact hneed)))
  rw [length_arrivals_at_once] at hrun'
  rw [hbytes, hrxlen] at hbuf
  exact ⟨_, stepsFrom_trans (stepsFrom_trans hrun hrun') (stepsFrom_succ 0 hdecode), hidle', hok, rfl,
    hvalue v.rxbuf hbuf, hatt'.trans hatt, rfl, hkeeps.agenda⟩

/-! ### The statement -/

/-- Settles O54: each typed call is an encoding, an expected length and a decoding; its device's frame has that length,
starts with ADDR and passes the check, and is read as the value. -/
theorem typedCallDeliversTheAnswer : Obligations.TypedCallDeliversTheAnswer := by
  unfold Obligations.TypedCallDeliversTheAnswer
  intro s c answer x later moves hinv hleast hidle hrequests hcall hagenda
  have deliversStatus : ∀ {enc : Instr} {status : Byte}, EncodesFrame enc →
      s.requests = [enc, .xfer 3#4, .decStatus].map encode ++ later → answer = frameStatus s.addr status →
      x = status.toNat →
      ∃ t, stepsFrom (2 + 1 + 2 * answer.length + 1) s = some t ∧ t.fsm = .idle ∧ t.res = .ok ∧
        t.rvalid = true ∧ t.rdata.toInt = x ∧ t.att = 1#4 ∧ t.requests = later ∧ t.agenda = moves := by
    rintro enc status henc hrequests rfl rfl
    refine stepsFrom_call (len := 3#4) henc (fun s => exec_decStatus_idle s) le_rfl (by simp) hinv hidle
      (by simp [hleast]) (length_withTrailer _) rfl (frameOk_withTrailer _) (fun f hf => ?_) hrequests hagenda
    rw [valueStatus_toInt, byteAt_of_take_eq hf (by simp)]
    rfl
  obtain ⟨cmd, v8, v16, v32, st, hc, ha, hx⟩ | ⟨cmd, rfl, rfl, hmin, hmax⟩ | ⟨cmd, rfl, rfl, hmin, hmax⟩ |
    ⟨cmd, rfl, rfl, hmin, hmax⟩ := hcall
  · rcases hc with rfl | rfl | rfl | rfl
    · exact deliversStatus (encodesFrame_encS cmd) hrequests ha hx
    · exact deliversStatus (encodesFrame_encP8 cmd v8) hrequests ha hx
    · exact deliversStatus (encodesFrame_encP16 cmd v16) hrequests ha hx
    · exact deliversStatus (encodesFrame_encP8P32 cmd v8 v32) hrequests ha hx
  · refine stepsFrom_call (len := 4#4) (encodesFrame_encS cmd) (fun _ => exec_decI16_idle) le_rfl (by simp) hinv
      hidle (by simp [hleast]) (length_withTrailer _) rfl (frameOk_withTrailer _) (fun f hf => ?_) hrequests hagenda
    rw [valueI16_of_frame hf hmin hmax]
    exact BitVec.toInt_ofInt_eq_self (by simp) (by omega) (by omega)
  · refine stepsFrom_call (len := 6#4) (encodesFrame_encS cmd) (fun _ => exec_decI32_idle) le_rfl (by simp) hinv
      hidle (by simp [hleast]) (length_withTrailer _) rfl (frameOk_withTrailer _) (fun f hf => ?_) hrequests hagenda
    rw [valueI32_of_frame hf hmin hmax]
    exact BitVec.toInt_ofInt_eq_self (by simp) (by omega) (by omega)
  · refine stepsFrom_call (len := 8#4) (encodesFrame_encS cmd) (fun _ => exec_decPos64_idle) le_rfl (by simp) hinv
      hidle (by simp [hleast]) (length_withTrailer _) rfl (frameOk_withTrailer _) (fun f hf => ?_) hrequests hagenda
    rw [valuePos64_of_frame hf hmin hmax]
    exact BitVec.toInt_ofInt_eq_self (by simp) (by omega) (by omega)

end Sys2Proof.Machine
end
